-- ==== Sys2Proof/Word.lean ====
section
/-! DEFINITION. The words of the block: a byte of sample memory or of an 8-bit register, a 64-bit step word
(30_encoding.md R80), and the unsigned values whose width is a launch parameter (00_scope.md R7, R9). -/

namespace Sys2Proof

/-- An 8-bit unsigned value: a sample, and every register of the PWM timer (00_scope.md R8). -/
abbrev Byte := BitVec 8

/-- A 64-bit step word (30_encoding.md R80). -/
abbrev Word := BitVec 64

/-- `v mod 2^width`. A value of the spec's `UInt N` whose width is a launch parameter is held as the exact unsigned
integer (`Nat`), narrowed only where a rule writes `mod 2^N` (00_scope.md R9, 92_eei_decisions.md D36); that every
register so held is below `2^N` is the invariant `State.Fits` (DESIGN CHOICE, safe: assumption log 11). -/
def wrap (width v : Nat) : Nat := v % 2 ^ width

end Sys2Proof
end

