-- ==== Sys2Proof/Syntax.lean ====
section
/-! DEFINITION. The operations of the block as syntax: the eleven rows of spec/opcode_table.json, the four agents
(00_scope.md R11), and a turn, which says who takes the next step word. -/

namespace Sys2Proof

/-- The operations of 30_encoding.md R81, one constructor per row of the opcode table. START's operands are the
fields BASE = w[31:0] and LEN = w[55:32] of its step word (R80, R82). -/
inductive Instr where
  | start (base : BitVec 32) (len : BitVec 24)
  | stop
  | scClk
  | pwmClk
  | isrEntry
  | diagToggle
  | loadSample
  | writeCmp
  | incCursor
  | clearOvf
  | reti
  deriving DecidableEq, Repr, Inhabited

/-- The four stepping agents (00_scope.md R11): the Sample Clock counter, the PWM counter, the tick sequencer and
the host. -/
inductive Agent where
  | sc
  | pw
  | ts
  | h
  deriving DecidableEq, Repr, Inhabited

/-- Who takes a step word (30_encoding.md R80, R84): `host` issues it as a host command; `block` is a step label,
a step one of the block's own agents SC, PW and TS takes. -/
inductive Issuer where
  | host
  | block
  deriving DecidableEq, Repr, Inhabited

/-- One turn of the interleaving (00_scope.md R11): who moves, and the step word that names the move. -/
structure Turn where
  issuer : Issuer
  word : Word
  deriving DecidableEq, Repr, Inhabited

end Sys2Proof
end

