-- ==== Sys2Proof/Config.lean ====
section
/-! DEFINITION. The launch parameters of 00_scope.md R7 as one record, the values they take at reset, and the free
values: what the spec leaves to a draw. A free value and an OPEN parameter is a constant with no body, so nothing
can be proved of which value it is. -/

namespace Sys2Proof

/-- What a tick does when `cursor >= buf_len` (00_scope.md R7, 41_sample_clock.md R114). -/
inductive OverrunPolicy where
  | fault
  | wrap
  | autostop
  | unchecked
  deriving DecidableEq, Repr, Inhabited

/-- A clock-divider selection, an abstract type of the spec (10_state.md R33, R40): a name and nothing more
(DESIGN CHOICE, safe: assumption log 12). -/
structure DivSel where
  id : Nat
  deriving DecidableEq, Repr, Inhabited

/-- A clock source, an abstract type of the spec (10_state.md R49; assumption log 12). -/
structure ClkSrc where
  id : Nat
  deriving DecidableEq, Repr, Inhabited

/-- The launch parameters, one field per row of 00_scope.md R7, fixed for a whole run. -/
structure Config where
  /-- `ADDR_W`: width of a sample-memory address and of `buf_base`. -/
  addrW : Nat
  /-- `LEN_W`: width of `buf_len`. -/
  lenW : Nat
  /-- `CURSOR_W`: width of `cursor`. -/
  cursorW : Nat
  /-- `SC_W`: width of `sc_cnt` and `sc_per`. -/
  scW : Nat
  /-- `MEM_SIZE`: number of bytes of sample memory. -/
  memSize : Nat
  /-- `NULL_ADDR`: the address that counts as a null buffer pointer. -/
  nullAddr : Nat
  /-- `SC_PER_VAL`: what SC_Configure writes to `sc_per`. -/
  scPerVal : Nat
  /-- `SC_DIV_VAL`: the divider SC_Configure selects. -/
  scDivVal : DivSel
  /-- `PW_DIV_VAL`: the divider PW_Configure selects. -/
  pwDivVal : DivSel
  /-- `PW_INIT_CMP`: the initial compare value PW_Configure writes. -/
  pwInitCmp : Byte
  /-- `CLK_SRC_VAL`: the clock source START selects. -/
  clkSrcVal : ClkSrc
  /-- `F_CLK`: the input clock in Hz (timing only, read by no step). -/
  fClk : Nat
  /-- `OVERRUN_POLICY`. -/
  overrunPolicy : OverrunPolicy
  /-- `DIAG_HOOK`: whether handler step (a) toggles the diagnostic pin. -/
  diagHook : Bool
  /-- `ASSUME_NO_TICK_LOSS`: whether an overflow is withheld while the previous one is unserviced. -/
  assumeNoTickLoss : Bool
  deriving DecidableEq, Repr

/-- What 00_scope.md R7 asks of the parameters: `CURSOR_W >= LEN_W`, `1 <= MEM_SIZE <= 2^ADDR_W`, and every value
of a parameter that a register of a given width takes fits that width. -/
def Config.wf (c : Config) : Bool :=
  decide (c.lenW ≤ c.cursorW) && decide (1 ≤ c.memSize) && decide (c.memSize ≤ 2 ^ c.addrW) &&
    decide (c.nullAddr < 2 ^ c.addrW) && decide (c.scPerVal < 2 ^ c.scW)

/-- `MEM_SIZE - 1` at reset: OPEN in 00_scope.md R7, so uninterpreted (assumption log 2). -/
opaque Config.openMemTop : BitVec 16

/-- `SC_PER_VAL` at reset: OPEN in 00_scope.md R7 (assumption log 2). -/
opaque Config.openScPerVal : BitVec 16

/-- `SC_DIV_VAL` at reset: OPEN in 00_scope.md R7 (assumption log 2). -/
opaque Config.openScDivVal : DivSel

/-- `PW_DIV_VAL` at reset: OPEN in 00_scope.md R7 (assumption log 2). -/
opaque Config.openPwDivVal : DivSel

/-- `PW_INIT_CMP` at reset: OPEN in 00_scope.md R7 (assumption log 2). -/
opaque Config.openPwInitCmp : Byte

/-- `CLK_SRC_VAL` at reset: OPEN in 00_scope.md R7 (assumption log 2). -/
opaque Config.openClkSrcVal : ClkSrc

/-- `F_CLK` at reset: OPEN in 00_scope.md R7 (assumption log 2). -/
opaque Config.openFClk : Nat

/-- The parameters `State.reset` launches with: the defaults 00_scope.md R7 decides (widths 16, `NULL_ADDR` 0,
policy `fault`, `DIAG_HOOK` on, `ASSUME_NO_TICK_LOSS` false) and an uninterpreted constant for each OPEN one. -/
def Config.launch : Config where
  addrW := 16
  lenW := 16
  cursorW := 16
  scW := 16
  memSize := Config.openMemTop.toNat + 1
  nullAddr := 0
  scPerVal := Config.openScPerVal.toNat
  scDivVal := Config.openScDivVal
  pwDivVal := Config.openPwDivVal
  pwInitCmp := Config.openPwInitCmp
  clkSrcVal := Config.openClkSrcVal
  fClk := Config.openFClk
  overrunPolicy := .fault
  diagHook := true
  assumeNoTickLoss := false

/-- Free value: the byte a read past the end of the buffer returns under `unchecked` ("draw byte", 41_sample_clock.md
R107), applied to the count of draws so far (assumption log 9). -/
opaque Config.drawByte : Nat → Byte

/-- Free value: the cursor INC_CURSOR leaves under `wrap` when no length is held, a case for which the spec states no
result and which no run reaches (41_sample_clock.md R109; assumption log 10). -/
opaque Config.drawCursor : Nat → Nat

/-- Free value: which turn comes next where no schedule says it ("any enabled step of any agent may be taken",
00_scope.md R11; assumption log 3). -/
opaque Config.drawTurn : Nat → Turn

end Sys2Proof
end

