-- ==== Sys2Proof/WellFormed.lean ====
section
/-! DEFINITION. Which instructions are well formed: START's operands fit the launch widths (30_encoding.md R82). -/

namespace Sys2Proof

/-- START is legal only if `base < 2^ADDR_W` and `len < 2^LEN_W` (30_encoding.md R82); every other operation has no
operands (R83). -/
def Instr.wf (addrW lenW : Nat) : Instr → Bool
  | .start base len => decide (base.toNat < 2 ^ addrW) && decide (len.toNat < 2 ^ lenW)
  | .stop | .scClk | .pwmClk | .isrEntry | .diagToggle | .loadSample | .writeCmp | .incCursor | .clearOvf
  | .reti => true

end Sys2Proof
end

