-- ==== Sys2Proof/Decode.lean ====
section
/-! DEFINITION. The decoder and the encoder of step words (30_encoding.md R80 to R87). The decoder is total: every
64-bit value is one operation or is rejected by name (R85). -/

namespace Sys2Proof

/-- Why a word names no operation (30_encoding.md R85). -/
inductive DecodeError where
  /-- The operation code is reserved (R81). -/
  | reservedOpcode
  /-- An operation without operands with a non-zero `w[55:0]` (R83). -/
  | operandBits
  /-- START with `base >= 2^ADDR_W` (R82). -/
  | baseOutOfRange
  /-- START with `len >= 2^LEN_W` (R82). -/
  | lenOutOfRange
  /-- Fewer than the eight bytes every step word has (R87). -/
  | truncated
  deriving DecidableEq, Repr

/-- `OPC = w[63:56]` (30_encoding.md R80). -/
def Word.opc (w : Word) : BitVec 8 := w.extractLsb' 56 8

/-- `LEN = w[55:32]` (30_encoding.md R80). -/
def Word.len (w : Word) : BitVec 24 := w.extractLsb' 32 24

/-- `BASE = w[31:0]` (30_encoding.md R80). -/
def Word.base (w : Word) : BitVec 32 := w.extractLsb' 0 32

/-- `w[55:0]`, the bits that must be zero without operands (30_encoding.md R83). -/
def Word.operandBits (w : Word) : BitVec 56 := w.extractLsb' 0 56

/-- The opcode map of 30_encoding.md R81 (and spec/opcode_table.json). -/
def Instr.opcode : Instr → BitVec 8
  | .start _ _ => 0x01#8
  | .stop => 0x02#8
  | .scClk => 0x80#8
  | .pwmClk => 0x81#8
  | .isrEntry => 0x90#8
  | .diagToggle => 0x91#8
  | .loadSample => 0x92#8
  | .writeCmp => 0x93#8
  | .incCursor => 0x94#8
  | .clearOvf => 0x95#8
  | .reti => 0x96#8

/-- The operand fields of an operation's word: START's LEN and BASE (R82), zero for every other (R83). -/
def Instr.operands : Instr → BitVec 24 × BitVec 32
  | .start base len => (len, base)
  | .stop | .scClk | .pwmClk | .isrEntry | .diagToggle | .loadSample | .writeCmp | .incCursor | .clearOvf
  | .reti => (0, 0)

/-- The operation without operands that an operation code names (30_encoding.md R81). -/
def labelOf (opc : BitVec 8) : Option Instr :=
  match opc.toNat with
  | 0x02 => some .stop
  | 0x80 => some .scClk
  | 0x81 => some .pwmClk
  | 0x90 => some .isrEntry
  | 0x91 => some .diagToggle
  | 0x92 => some .loadSample
  | 0x93 => some .writeCmp
  | 0x94 => some .incCursor
  | 0x95 => some .clearOvf
  | 0x96 => some .reti
  | _ => none

/-- START's operands, zero-extended and checked against the widths (30_encoding.md R82). -/
def decodeStart (addrW lenW : Nat) (w : Word) : Except DecodeError Instr :=
  if ¬ (Word.base w).toNat < 2 ^ addrW then .error .baseOutOfRange
  else if ¬ (Word.len w).toNat < 2 ^ lenW then .error .lenOutOfRange
  else .ok (.start (Word.base w) (Word.len w))

/-- An operation without operands: `w[55:0]` must be zero (30_encoding.md R83). -/
def decodeLabel (w : Word) : Except DecodeError Instr :=
  match labelOf (Word.opc w) with
  | none => .error .reservedOpcode
  | some i => if Word.operandBits w = 0 then .ok i else .error .operandBits

/-- The decoder: every word is START, STOP, a step label, or rejected by name (30_encoding.md R85). No mode changes
it (R87); the widths are launch parameters (00_scope.md R7). -/
def decode (addrW lenW : Nat) (w : Word) : Except DecodeError Instr :=
  if Word.opc w = 0x01#8 then decodeStart addrW lenW w else decodeLabel w

/-- The word of an operation (30_encoding.md R80): `{OPC, LEN, BASE}`. -/
def encode (i : Instr) : Word := i.opcode ++ (i.operands.1 ++ i.operands.2)

/-- A step word as bytes, little-endian: byte 0 holds bits 7:0 (20_memory.md R64). -/
def bytesOfWord (w : Word) : List Byte :=
  [w.extractLsb' 0 8, w.extractLsb' 8 8, w.extractLsb' 16 8, w.extractLsb' 24 8,
    w.extractLsb' 32 8, w.extractLsb' 40 8, w.extractLsb' 48 8, w.extractLsb' 56 8]

/-- Eight bytes as a step word, little-endian (20_memory.md R64), with the rest of the list. -/
def wordOfBytes : List Byte → Option (Word × List Byte)
  | b0 :: b1 :: b2 :: b3 :: b4 :: b5 :: b6 :: b7 :: rest =>
    some (b7 ++ (b6 ++ (b5 ++ (b4 ++ (b3 ++ (b2 ++ (b1 ++ b0)))))), rest)
  | _ => none

/-- The decoder on serialised bytes: the instruction and the rest of the list (20_memory.md R64, 30_encoding.md R87). -/
def decodeBytes (addrW lenW : Nat) (bs : List Byte) : Except DecodeError (Instr × List Byte) :=
  match wordOfBytes bs with
  | none => .error .truncated
  | some (w, rest) =>
    match decode addrW lenW w with
    | .ok i => .ok (i, rest)
    | .error e => .error e

/-- What the decoder reads from a row of spec/opcode_table.json whose bits are `w` (the bits above `nbits` zero),
laid out as bytes little-endian (20_memory.md R64) and read at the reset widths (00_scope.md R7). -/
def decodeTableWord (nbits w : Nat) : Option Instr :=
  match decodeBytes Config.launch.addrW Config.launch.lenW (bytesOfWord (BitVec.ofNat 64 (w % 2 ^ nbits))) with
  | .ok (i, _) => some i
  | .error _ => none

/-- The agent whose step an operation is (30_encoding.md R81, 00_scope.md R11). -/
def Instr.agent : Instr → Agent
  | .start _ _ | .stop => .h
  | .scClk => .sc
  | .pwmClk => .pw
  | .isrEntry | .diagToggle | .loadSample | .writeCmp | .incCursor | .clearOvf | .reti => .ts

/-- START and STOP are the two host commands; every other operation is a step label (30_encoding.md R84). -/
def Instr.isHostCommand (i : Instr) : Bool := decide (i.agent = .h)

/-- The turn that takes an operation: the host issues a command, the block takes a step label (30_encoding.md R80). -/
def Turn.ofInstr (i : Instr) : Turn := ⟨if i.isHostCommand then .host else .block, encode i⟩

end Sys2Proof
end

