-- ==== Sys2Proof/Machine/State.lean ====
section
/-! DEFINITION. The state record of 10_state.md R20 as plain data, with the sample memory, the launch parameters and
the model's own schedule and draw count; the reasons a step can stop; and the state after reset. -/

namespace Sys2Proof.Machine

/-- The tick sequencer's phase, the block's only program counter (10_state.md R26). -/
inductive Phase where
  | idle
  | a
  | b
  | c
  | d
  | e
  | ret
  deriving DecidableEq, Repr, Inhabited

/-- The Sample Clock's operating mode (10_state.md R32). -/
inductive ScMode where
  | normal
  | other
  deriving DecidableEq, Repr, Inhabited

/-- The PWM timer's counting mode (10_state.md R37). -/
inductive PwMode where
  | pwm8
  | other
  deriving DecidableEq, Repr, Inhabited

/-- The fault codes of 60_exceptions.md R201. -/
inductive FaultCode where
  | overrun
  | nullBuffer
  | noBuffer
  | memRange
  | illegalCommand
  | unwrittenRead
  | unmodelledConfig
  deriving DecidableEq, Repr, Inhabited

/-- A recorded fault: the pair `(code, info)` of 10_state.md R51; `info` is none for the codes 60_exceptions.md R201
gives no value. -/
structure FaultRecord where
  code : FaultCode
  info : Option Nat
  deriving DecidableEq, Repr

/-- The events of the history (10_state.md R52). -/
inductive Event where
  | evStart (base len : Nat)
  | evStop
  | evTick
  | evCmpWrite (v : Byte)
  | evTickLost
  | evOverrunRead (index : Nat)
  | evAutoStop
  deriving DecidableEq, Repr

/-- Sample memory as (address, byte) pairs in one canonical form, `Memory.wf` (20_memory.md R60, R61). -/
abbrev Memory := List Host.Cell

/-- The state record (10_state.md R20), each field under the spec's name. A one-bit field is a `Bool`; a field whose
width is a launch parameter is a `Nat` (00_scope.md R9, assumption log 11). -/
structure State where
  /-- The launch parameters (00_scope.md R7), which no step changes (assumption log 1). -/
  cfg : Config
  /-- The sample memory (20_memory.md R60), which no step changes (R61). -/
  mem : Memory
  /-- `buf_base` (10_state.md R22). -/
  bufBase : Option Nat
  /-- `buf_len` (10_state.md R23). -/
  bufLen : Option Nat
  /-- `cursor` (10_state.md R24). -/
  cursor : Nat
  /-- `sample_tmp` (10_state.md R25). -/
  sampleTmp : Option Byte
  /-- `phase` (10_state.md R26). -/
  phase : Phase
  /-- `sc_ovf` (10_state.md R28). -/
  scOvf : Bool
  /-- `gie` (10_state.md R29). -/
  gie : Bool
  /-- `sc_en` (10_state.md R30). -/
  scEn : Bool
  /-- `sc_ovfie` (10_state.md R31). -/
  scOvfie : Bool
  /-- `sc_mode` (10_state.md R32). -/
  scMode : ScMode
  /-- `sc_div` (10_state.md R33). -/
  scDiv : DivSel
  /-- `sc_per` (10_state.md R34). -/
  scPer : Nat
  /-- `sc_cnt` (10_state.md R35). -/
  scCnt : Nat
  /-- `pw_en` (10_state.md R36). -/
  pwEn : Bool
  /-- `pw_mode` (10_state.md R37). -/
  pwMode : PwMode
  /-- `pw_async` (10_state.md R38). -/
  pwAsync : Bool
  /-- `pw_outen` (10_state.md R39). -/
  pwOuten : Bool
  /-- `pw_div` (10_state.md R40). -/
  pwDiv : DivSel
  /-- `pw_per` (10_state.md R41). -/
  pwPer : Byte
  /-- `pw_cmp` (10_state.md R42). -/
  pwCmp : Byte
  /-- `pw_cmp_act` (10_state.md R43). -/
  pwCmpAct : Byte
  /-- `pw_cnt` (10_state.md R44). -/
  pwCnt : Byte
  /-- `out_dir` (10_state.md R45). -/
  outDir : Bool
  /-- `out_lvl` (10_state.md R46). -/
  outLvl : Bool
  /-- `route` (10_state.md R47). -/
  route : Bool
  /-- `diag_lvl` (10_state.md R48). -/
  diagLvl : Bool
  /-- `clk_sel` (10_state.md R49). -/
  clkSel : ClkSrc
  /-- `faults` (10_state.md R51): a set, held as a list without repeats (assumption log 15). -/
  faults : List FaultRecord
  /-- `history`, oldest first (10_state.md R52). -/
  history : List Event
  /-- The model's own: the turns still to be taken, in order (00_scope.md R11; assumption log 3). -/
  schedule : List Turn
  /-- The model's own: how many free values have been drawn (assumption log 21). -/
  draws : Nat
  deriving DecidableEq, Repr

/-- How a step can stop. -/
inductive Fault where
  /-- `faults` is not empty, so no step of any agent is enabled, ever again (60_exceptions.md R202, U13). Raised by
  every operation and by `step`. Safe: the hardware would go on, and nothing is claimed of what it then does. -/
  | stopped
  deriving DecidableEq, Repr

/-- Why a turn is no step: "not enabled" of 00_scope.md R12, by name. -/
inductive Refusal where
  /-- An instruction with no meaning yet; raised by no arm of `exec`. Safe. -/
  | notModelled (mnemonic : String)
  /-- The guard of the operation is false, so the step cannot be taken in this state (00_scope.md R12). Raised by the
  meaning of every operation. Safe (assumption log 5). -/
  | notEnabled (i : Instr)
  /-- The host holds an illegal word while a handler run is in progress: no host command is enabled then
  (43_lifecycle.md R176). Raised by `execIllegal`. Safe (assumption log 5). -/
  | hostHeld (w : Word)
  /-- A turn of the block's own agents whose word is no step label: a trace holding it is not a run (30_encoding.md
  R83). Raised by `blockTurn`. Safe (assumption log 14). -/
  | notAStepLabel (w : Word)
  deriving DecidableEq, Repr

/-- The state right after reset for given launch parameters and sample memory (70_reset_and_hazards.md R230). The
nine fields whose reset value is unspecified (`sc_mode`, `sc_div`, `sc_per`, `pw_mode`, `pw_div`, `pw_per`, `pw_cmp`,
`pw_cmp_act`, `clk_sel`) hold the values assumption log 7 names (DESIGN CHOICE, unsafe); `schedule` and `draws` are the
model's own (log 3, log 21). -/
def State.boot (cfg : Config) (mem : Memory) : State where
  cfg := cfg
  mem := mem
  bufBase := none
  bufLen := none
  cursor := 0
  sampleTmp := none
  phase := .idle
  scOvf := false
  gie := false
  scEn := false
  scOvfie := false
  scMode := .other
  scDiv := ⟨0⟩
  scPer := 0
  scCnt := 0
  pwEn := false
  pwMode := .other
  pwAsync := false
  pwOuten := false
  pwDiv := ⟨0⟩
  pwPer := 0
  pwCmp := 0
  pwCmpAct := 0
  pwCnt := 0
  outDir := false
  outLvl := false
  route := false
  diagLvl := false
  clkSel := ⟨0⟩
  faults := []
  history := []
  schedule := []
  draws := 0

/-- The machine right after reset: the launch parameters of `Config.launch` and nothing listed in sample memory
(70_reset_and_hazards.md R230; assumption logs 2 and 8). -/
def State.reset : State := State.boot Config.launch []

end Sys2Proof.Machine
end

