-- ==== Sys2Proof/Machine/Ops.lean ====
section
/-! DEFINITION. The shared operations: reading sample memory, recording a fault, emitting an event, drawing a free
value, the guard every step has, and interrupt entry and return (00_scope.md R10, 20_memory.md R62, 60_exceptions.md). -/

namespace Sys2Proof.Machine

/-- What an operation answers. -/
abbrev Result := Host.Outcome State Fault Refusal

/-- The next state of an answer, if it is one. -/
def nextState : Result → Option State
  | .next s => some s
  | .fault _ => none
  | .refused _ => none

/-- What an unlisted byte of sample memory reads as. The contents are a launch parameter (20_memory.md R61) that any
list of pairs can give; a byte not listed is 00H (DESIGN CHOICE, unsafe: assumption log 8). -/
def Memory.unlisted : Byte := 0

/-- The byte at an address of sample memory (20_memory.md R60). -/
def Memory.read : Memory → Nat → Byte
  | [], _ => Memory.unlisted
  | (a, v) :: rest, addr => if addr = a then v else Memory.read rest addr

/-- The memory with one byte set, in canonical form: how a launch image is built. No step of the block calls it
(20_memory.md R61, R63). -/
def Memory.set : Memory → Nat → Byte → Memory
  | [], addr, v => if v = Memory.unlisted then [] else [(addr, v)]
  | (a, w) :: rest, addr, v =>
    if addr < a then (if v = Memory.unlisted then (a, w) :: rest else (addr, v) :: (a, w) :: rest)
    else if addr = a then (if v = Memory.unlisted then rest else (addr, v) :: rest)
    else (a, w) :: Memory.set rest addr v

/-- The image with the bytes `vs` from `addr` on: the Sample Buffer as a launch lays it (70_reset_and_hazards.md R234). -/
def Memory.setBytes : Memory → Nat → List Byte → Memory
  | m, _, [] => m
  | m, addr, v :: vs => Memory.setBytes (Memory.set m addr v) (addr + 1) vs

/-- Canonical form from an address on: addresses strictly rising, no entry equal to what an unlisted address reads as. -/
def Memory.wfFrom : Nat → Memory → Bool
  | _, [] => true
  | lo, (a, v) :: rest => decide (lo ≤ a) && decide (v ≠ Memory.unlisted) && Memory.wfFrom (a + 1) rest

/-- The canonical form of sample memory. -/
def Memory.wf (m : Memory) : Bool := Memory.wfFrom 0 m

/-- Every listed address lies in the memory's `size` bytes (20_memory.md R60). -/
def Memory.within (size : Nat) (m : Memory) : Bool := m.all fun cell => decide (cell.1 < size)

/-- Why a read of sample memory raises: the pair that is recorded, or the byte (20_memory.md R62). `addr` is an exact
natural number; one at or past `MEM_SIZE` raises MEM_RANGE with the address as its info (60_exceptions.md R201). -/
def memRead (s : State) (addr : Nat) : Except FaultRecord Byte :=
  if addr ≥ s.cfg.memSize then .error ⟨.memRange, some addr⟩ else .ok (Memory.read s.mem addr)

/-- The number of a fault code (60_exceptions.md R201). -/
def FaultCode.number : FaultCode → Nat
  | .overrun => 1
  | .nullBuffer => 2
  | .noBuffer => 3
  | .memRange => 4
  | .illegalCommand => 5
  | .unwrittenRead => 6
  | .unmodelledConfig => 7

/-- `faults` with a pair added; it is a set (10_state.md R51). -/
def recordFault (r : FaultRecord) (s : State) : State :=
  { s with faults := if r ∈ s.faults then s.faults else s.faults ++ [r] }

/-- `raise Fault(code)`: the pair is recorded and nothing else of the step happens (60_exceptions.md R201). The state
that records it is the step's next state; every later step answers the fault `stopped` (R202; DEDUCED, safe:
assumption log 6). -/
def raise (code : FaultCode) (info : Option Nat) (s : State) : Result := .next (recordFault ⟨code, info⟩ s)

/-- `emit Ev(args)`: append to the history (10_state.md R52). -/
def emit (ev : Event) (s : State) : State := { s with history := s.history ++ [ev] }

/-- One free value has been drawn (assumption log 21). -/
def advanceDraws (s : State) : State := { s with draws := s.draws + 1 }

/-- The guard of a step: with a fault recorded no step is enabled, ever again (60_exceptions.md R202); with the guard
false the step is not enabled in this state (00_scope.md R12); else `act`. -/
def guarded (enabled : Bool) (otherwise : Refusal) (s : State) (act : Result) : Result :=
  match s.faults with
  | [] => if enabled then act else .refused otherwise
  | _ :: _ => .fault .stopped

/-- Taking the interrupt (60_exceptions.md R207): nothing is saved but the handler's own position, `gie` is cleared and
control goes to phase A of the one fixed handler. -/
def enterInterrupt (s : State) : State := { s with gie := false, phase := .a }

/-- Return from the handler (60_exceptions.md R208): `gie` is set, `sample_tmp` discarded, control returns to the host.
It restores no other state. -/
def returnFromInterrupt (s : State) : State := { s with gie := true, sampleTmp := none, phase := .idle }

end Sys2Proof.Machine
end

