-- ==== Sys2Proof/Machine/DutyCycle.lean ====
section
/-! DEFINITION. The Duty-Cycle Output: its configuration, PWM_CLK with the compare latch, and the audio pin
(42_duty_cycle_output.md). -/

namespace Sys2Proof.Machine

/-- PW_Configure (42_duty_cycle_output.md R141), performed only inside START. The compare latch is loaded at once only
if the timer was stopped. -/
def pwConfigure (s : State) : State :=
  { s with
    outDir := true
    route := true
    pwPer := 255
    pwCmp := s.cfg.pwInitCmp
    pwCmpAct := if s.pwEn then s.pwCmpAct else s.cfg.pwInitCmp
    pwMode := .pwm8
    pwAsync := true
    pwOuten := true
    pwDiv := s.cfg.pwDivVal
    pwEn := true }

/-- One count of the PWM counter; at the end of the period the written compare value reaches the waveform
(42_duty_cycle_output.md R142, R143). -/
def pwCount (s : State) : State :=
  if s.pwPer ≤ s.pwCnt then { s with pwCnt := 0, pwCmpAct := s.pwCmp } else { s with pwCnt := s.pwCnt + 1 }

/-- PWM_CLK (42_duty_cycle_output.md R142). -/
def execPwmClk (s : State) : Result :=
  guarded s.pwEn (.notEnabled .pwmClk) s <|
    match s.pwMode with
    | .pwm8 => .next (pwCount s)
    | .other => raise .unmodelledConfig (some 1) s

/-- The level of the audio pin (42_duty_cycle_output.md R144). -/
inductive Level where
  | hiz
  | low
  | high
  deriving DecidableEq, Repr, Inhabited

/-- The PWM drives the audio pin: enabled, pin output enabled and routed (42_duty_cycle_output.md R144). -/
def pwmDrivesPin (s : State) : Bool := s.pwEn && s.pwOuten && s.route

/-- The audio pin's level, a function of the state (42_duty_cycle_output.md R144). -/
def audioPin (s : State) : Level :=
  if s.outDir then
    if pwmDrivesPin s then (if s.pwCnt < s.pwCmpAct then .high else .low)
    else (if s.outLvl then .high else .low)
  else .hiz

end Sys2Proof.Machine
end

