-- ==== Sys2Proof/Machine/Operands.lean ====
section
/-! DEFINITION. The operand forms: START's zero-extended fields, the one effective address, and the value of a register
that may hold none (30_encoding.md R82, 41_sample_clock.md R113). -/

namespace Sys2Proof.Machine

/-- START's `base` as it is stored: `base[ADDR_W-1:0]`, zero-extended (30_encoding.md R82). -/
def startBase (cfg : Config) (base : BitVec 32) : Nat := wrap cfg.addrW base.toNat

/-- START's `len` as it is stored: `len[LEN_W-1:0]`, zero-extended (30_encoding.md R82). -/
def startLen (cfg : Config) (len : BitVec 24) : Nat := wrap cfg.lenW len.toNat

/-- `EA(base, i)`: the exact sum, no wrap at `2^ADDR_W` (41_sample_clock.md R113). -/
def effectiveAddress (base i : Nat) : Nat := base + i

/-- The buffer reference LOAD_SAMPLE reads, if both its fields are held (41_sample_clock.md R107). -/
def bufferHeld (s : State) : Option (Nat × Nat) :=
  match s.bufBase, s.bufLen with
  | some base, some len => some (base, len)
  | _, _ => none

end Sys2Proof.Machine
end

