-- ==== Sys2Proof/Machine/Flags.lean ====
section
/-! DEFINITION. The flag computations: when the Sample Clock overflows, when an overflow is lost or withheld, and when
the interrupt is pending and taken (41_sample_clock.md R102 to R104). -/

namespace Sys2Proof.Machine

/-- The overflow condition of SC_CLK: the counter stands at TOP = `sc_per` (41_sample_clock.md R102). -/
def scAtTop (s : State) : Bool := decide (s.scCnt = s.scPer)

/-- The interrupt is pending: flag set and enabled (41_sample_clock.md R104). -/
def pending (s : State) : Bool := s.scOvf && s.scOvfie

/-- The interrupt is taken when pending, globally enabled and no handler run is in progress (41_sample_clock.md R104). -/
def interruptTaken (s : State) : Bool := decide (s.phase = .idle) && s.gie && s.scOvfie && s.scOvf

/-- Under `ASSUME_NO_TICK_LOSS` an overflow is held while the previous one is pending (41_sample_clock.md R103). -/
def overflowHeld (s : State) : Bool := s.cfg.assumeNoTickLoss && scAtTop s && pending s

/-- The event of a lost tick: an overflow while the flag is set and enabled (41_sample_clock.md R103). -/
def emitIfTickLost (s : State) : State :=
  { s with history := if pending s then s.history ++ [.evTickLost] else s.history }

end Sys2Proof.Machine
end

