-- ==== Sys2Proof/Machine/SampleClock.lean ====
section
/-! DEFINITION. The Sample Clock: its configuration and SC_CLK (41_sample_clock.md R101 to R103). -/

namespace Sys2Proof.Machine

/-- SC_Configure (41_sample_clock.md R101), performed only inside START. It writes neither `sc_cnt` nor `sc_ovf`. -/
def scConfigure (s : State) : State :=
  { s with
    scMode := .normal
    scPer := s.cfg.scPerVal
    scDiv := s.cfg.scDivVal
    scEn := true
    scOvfie := true }

/-- One count of the Sample Clock counter: overflow at TOP = `sc_per`, else count modulo `2^SC_W`
(41_sample_clock.md R102). Two overflows merge into the one flag (R103). -/
def scCount (s : State) : State :=
  if scAtTop s then { emitIfTickLost s with scCnt := 0, scOvf := true }
  else { s with scCnt := wrap s.cfg.scW (s.scCnt + 1) }

/-- SC_CLK (41_sample_clock.md R102). -/
def execScClk (s : State) : Result :=
  guarded (s.scEn && !overflowHeld s) (.notEnabled .scClk) s <|
    match s.scMode with
    | .normal => .next (scCount s)
    | .other => raise .unmodelledConfig (some 0) s

end Sys2Proof.Machine
end

