-- ==== Sys2Proof/Machine/Lifecycle.lean ====
section
/-! DEFINITION. The host commands START and STOP, the illegal command, and the derived playback state
(43_lifecycle.md, 30_encoding.md R85, 10_state.md R50). -/

namespace Sys2Proof.Machine

/-- The host is held while a handler run is in progress (43_lifecycle.md R176). -/
def hostEnabled (s : State) : Bool := decide (s.phase = .idle)

/-- An illegal command: ILLEGAL_COMMAND with the 64-bit word, and no other state changes (30_encoding.md R85,
60_exceptions.md R201). Like every host command it is enabled only in phase IDLE (43_lifecycle.md R176). -/
def execIllegal (w : Word) (s : State) : Result :=
  guarded (hostEnabled s) (.hostHeld w) s (raise .illegalCommand (some w.toNat) s)

/-- START's writes, in the source's order, as one step (43_lifecycle.md R171). -/
def startPlayback (base len : Nat) (s : State) : State :=
  let stored := { s with bufBase := some base, bufLen := some len, cursor := 0, clkSel := s.cfg.clkSrcVal }
  emit (.evStart base len) { pwConfigure (scConfigure stored) with gie := true }

/-- START (43_lifecycle.md R171). With an operand out of range its word is an illegal command (30_encoding.md R82, R85;
DEDUCED, safe: assumption log 13). -/
def execStart (base : BitVec 32) (len : BitVec 24) (s : State) : Result :=
  if Instr.wf s.cfg.addrW s.cfg.lenW (.start base len) then
    guarded (hostEnabled s) (.notEnabled (.start base len)) s
      (.next (startPlayback (startBase s.cfg base) (startLen s.cfg len) s))
  else execIllegal (encode (.start base len)) s

/-- STOP's writes, in the source's order, as one step (43_lifecycle.md R173). -/
def stopPlayback (s : State) : State :=
  emit .evStop { s with scOvfie := false, pwEn := false, outLvl := false, cursor := 0 }

/-- STOP (43_lifecycle.md R173). -/
def execStop (s : State) : Result := guarded (hostEnabled s) (.notEnabled .stop) s (.next (stopPlayback s))

/-- The playback state (10_state.md R50). The fourth combination of the two enable bits, which no run reaches, has a
name of its own (DEDUCED, safe: assumption log 20). -/
inductive Playback where
  | playing
  | stopped
  | drained
  | unreachable
  deriving DecidableEq, Repr

/-- The playback state, a function of the two enable bits (10_state.md R50). -/
def playback (s : State) : Playback :=
  match s.scOvfie, s.pwEn with
  | true, true => .playing
  | false, false => .stopped
  | false, true => .drained
  | true, false => .unreachable

end Sys2Proof.Machine
end

