-- ==== Sys2Proof/Machine/TickSequencer.lean ====
section
/-! DEFINITION. The tick sequencer: interrupt entry, the handler's steps (a) to (e), and return
(41_sample_clock.md R105 to R111). -/

namespace Sys2Proof.Machine

/-- A step of the handler is enabled in its own phase only. -/
def inPhase (p : Phase) (i : Instr) (s : State) (act : Result) : Result :=
  guarded (decide (s.phase = p)) (.notEnabled i) s act

/-- ISR_ENTRY: take the pending overflow interrupt (41_sample_clock.md R105). `sc_ovf` is not cleared. -/
def execIsrEntry (s : State) : Result :=
  guarded (interruptTaken s) (.notEnabled .isrEntry) s (.next (emit .evTick (enterInterrupt s)))

/-- DIAG_TOGGLE: handler step (a) (41_sample_clock.md R106). -/
def execDiagToggle (s : State) : Result :=
  inPhase .a .diagToggle s
    (.next { s with diagLvl := if s.cfg.diagHook then !s.diagLvl else s.diagLvl, phase := .b })

/-- A sample is held for step (c), and the sequencer goes on to it (41_sample_clock.md R107). -/
def holdSample (v : Byte) (s : State) : State := { s with sampleTmp := some v, phase := .c }

/-- LOAD_SAMPLE at `cursor >= buf_len` (41_sample_clock.md R107, R114). Under `unchecked` the byte is a free value
(assumption log 9). -/
def overrun (s : State) : Result :=
  match s.cfg.overrunPolicy with
  | .fault | .wrap => raise .overrun (some s.cursor) s
  | .autostop => .next (emit .evAutoStop { s with scOvfie := false, phase := .e })
  | .unchecked =>
    .next (emit (.evOverrunRead s.cursor) (holdSample (Config.drawByte s.draws) (advanceDraws s)))

/-- LOAD_SAMPLE inside the buffer: the byte at `EA(base, cursor)`, or MEM_RANGE (41_sample_clock.md R107, R113). -/
def loadInBuffer (base : Nat) (s : State) : Result :=
  match memRead s (effectiveAddress base s.cursor) with
  | .ok v => .next (holdSample v s)
  | .error r => raise r.code r.info s

/-- What LOAD_SAMPLE does once enabled; the faults in the order of 60_exceptions.md R206. -/
def loadSample (s : State) : Result :=
  match bufferHeld s with
  | none => raise .noBuffer none s
  | some (base, len) =>
    if base = s.cfg.nullAddr then raise .nullBuffer (some s.cursor) s
    else if len ≤ s.cursor then overrun s
    else loadInBuffer base s

/-- LOAD_SAMPLE: handler step (b) (41_sample_clock.md R107). -/
def execLoadSample (s : State) : Result := inPhase .b .loadSample s (loadSample s)

/-- What WRITE_CMP does once enabled (41_sample_clock.md R108). -/
def writeCmp (s : State) : Result :=
  match s.sampleTmp with
  | none => raise .unwrittenRead none s
  | some v => .next (emit (.evCmpWrite v) { s with pwCmp := v, phase := .d })

/-- WRITE_CMP: handler step (c) (41_sample_clock.md R108). -/
def execWriteCmp (s : State) : Result := inPhase .c .writeCmp s (writeCmp s)

/-- INC_CURSOR's new cursor (41_sample_clock.md R109). Under `wrap` with no length held, which no run reaches, the rule
states no result: the cursor is a free value (DESIGN CHOICE, safe: assumption log 10). -/
def nextCursor (s : State) : Nat :=
  match s.cfg.overrunPolicy with
  | .wrap =>
    match s.bufLen with
    | some len => if len ≤ s.cursor + 1 then 0 else s.cursor + 1
    | none => wrap s.cfg.cursorW (Config.drawCursor s.draws)
  | .fault | .autostop | .unchecked => wrap s.cfg.cursorW (s.cursor + 1)

/-- Whether INC_CURSOR takes a free value (assumption log 10). -/
def incDraws (s : State) : Bool := decide (s.cfg.overrunPolicy = .wrap) && s.bufLen.isNone

/-- INC_CURSOR: handler step (d) (41_sample_clock.md R109). -/
def execIncCursor (s : State) : Result :=
  inPhase .d .incCursor s
    (.next { s with cursor := nextCursor s, phase := .e, draws := if incDraws s then s.draws + 1 else s.draws })

/-- CLEAR_OVF: handler step (e) (41_sample_clock.md R110). -/
def execClearOvf (s : State) : Result :=
  inPhase .e .clearOvf s (.next { s with scOvf := false, phase := .ret })

/-- RETI: return from the handler (41_sample_clock.md R111). -/
def execReti (s : State) : Result := inPhase .ret .reti s (.next (returnFromInterrupt s))

end Sys2Proof.Machine
end

