-- ==== Sys2Proof/Machine/Dispatch.lean ====
section
/-! DEFINITION. exec: one arm per operation of spec/opcode_table.json. -/

namespace Sys2Proof.Machine

def exec (i : Instr) (s : State) : Host.Outcome State Fault Refusal :=
  match i with
  | .start base len => Sys2Proof.Machine.execStart base len s
  | .stop => Sys2Proof.Machine.execStop s
  | .scClk => Sys2Proof.Machine.execScClk s
  | .pwmClk => Sys2Proof.Machine.execPwmClk s
  | .isrEntry => Sys2Proof.Machine.execIsrEntry s
  | .diagToggle => Sys2Proof.Machine.execDiagToggle s
  | .loadSample => Sys2Proof.Machine.execLoadSample s
  | .writeCmp => Sys2Proof.Machine.execWriteCmp s
  | .incCursor => Sys2Proof.Machine.execIncCursor s
  | .clearOvf => Sys2Proof.Machine.execClearOvf s
  | .reti => Sys2Proof.Machine.execReti s

end Sys2Proof.Machine
end

