-- ==== Sys2Proof/Machine/Turns.lean ====
section
/-! DEFINITION. Taking a turn: a word the host issues, or a step label of the block's own agents; which turn is next;
and how a word is placed so that the very next step runs it (30_encoding.md R80, R84, R85, 00_scope.md R11). -/

namespace Sys2Proof.Machine

/-- The operation a word names at this machine's widths (30_encoding.md R82, R85). -/
def decodeHere (s : State) (w : Word) : Except DecodeError Instr := decode s.cfg.addrW s.cfg.lenW w

/-- The host issues a word: START and STOP act, every other word is an illegal command, a step label too
(30_encoding.md R84, R85). -/
def hostTurn (w : Word) (s : State) : Result :=
  match decodeHere s w with
  | .ok i => if i.isHostCommand then exec i s else execIllegal w s
  | .error _ => execIllegal w s

/-- One of the block's own agents takes the step a label names (30_encoding.md R80). A word that is no step label names
no step (R83; DEDUCED, safe: assumption log 14). -/
def blockTurn (w : Word) (s : State) : Result :=
  match decodeHere s w with
  | .ok i => if i.isHostCommand then .refused (.notAStepLabel w) else exec i s
  | .error _ => .refused (.notAStepLabel w)

/-- Take one turn. -/
def takeTurn (t : Turn) (s : State) : Result :=
  match t.issuer with
  | .host => hostTurn t.word s
  | .block => blockTurn t.word s

/-- A turn the schedule does not name is a free value ("any enabled step of any agent may be taken", 00_scope.md R11):
a drawn turn that is not enabled is not taken, and only the draw counts (DESIGN CHOICE, safe: assumption log 3). -/
def takeDrawnTurn (s : State) : Result :=
  match takeTurn (Config.drawTurn s.draws) (advanceDraws s) with
  | .next t => .next t
  | .fault f => .fault f
  | .refused _ => .next (advanceDraws s)

/-- The state once the first scheduled turn has been taken off. -/
def popTurn (s : State) : State := { s with schedule := s.schedule.tail }

/-- One step of the machine: with a fault recorded there is none (60_exceptions.md R202); else the first scheduled turn,
or a drawn one. -/
def nextStep (s : State) : Result :=
  match s.faults, s.schedule with
  | _ :: _, _ => .fault .stopped
  | [], t :: _ => takeTurn t (popTurn s)
  | [], [] => takeDrawnTurn s

/-- Take operations one after the other, stopping at the first that answers no next state: a trace (30_encoding.md R80). -/
def execAll : List Instr → State → Result
  | [], s => .next s
  | i :: rest, s =>
    match exec i s with
    | .next t => execAll rest t
    | .fault f => .fault f
    | .refused r => .refused r

/-- The state in which an operation's guard holds, as the block selects its next step by its guards (00_scope.md R12):
only the fields the guard reads are changed. -/
def enable (i : Instr) (s : State) : State :=
  let u := { s with faults := [] }
  match i with
  | .start _ _ | .stop => { u with phase := .idle }
  | .scClk => { u with scEn := true, scOvf := u.scOvf && !overflowHeld u }
  | .pwmClk => { u with pwEn := true }
  | .isrEntry => { u with phase := .idle, gie := true, scOvfie := true, scOvf := true }
  | .diagToggle => { u with phase := .a }
  | .loadSample => { u with phase := .b }
  | .writeCmp => { u with phase := .c }
  | .incCursor => { u with phase := .d }
  | .clearOvf => { u with phase := .e }
  | .reti => { u with phase := .ret }

/-- Place a word as the next turn and enable it. A word that decodes to no step label is the host's. -/
def placeWord (w : Word) (s : State) : State :=
  match decodeHere s w with
  | .ok i => { enable i s with schedule := ⟨if i.isHostCommand then .host else .block, w⟩ :: s.schedule }
  | .error _ => { enable .stop s with schedule := ⟨.host, w⟩ :: s.schedule }

end Sys2Proof.Machine
end

