-- ==== Sys2Proof/Machine/Step.lean ====
section
/-! DEFINITION. One step of the machine, and how the host's table words are placed for it. -/

namespace Sys2Proof.Machine

/-- One step of the machine (00_scope.md R11, R12). -/
def step (s : State) : Host.Outcome State Fault Refusal := nextStep s

/-- The state whose very next step runs the word `w`: the block fetches no instructions (20_memory.md R74), so the word
is placed as the next turn and the guard that selects its step is made true (DESIGN CHOICE, safe: assumption log 4). -/
def State.withFetchWord (s : State) (nbits w : Nat) : State := placeWord (BitVec.ofNat 64 (w % 2 ^ nbits)) s

end Sys2Proof.Machine
end

