-- ==== Sys2Proof/Machine/Assembler.lean ====
section
/-! DEFINITION. The assembler syntax and the pseudo-instructions of 30_encoding.md R88 and R89: one line of text to the
operations it stands for. -/

namespace Sys2Proof.Machine

/-- The pseudo-instructions (30_encoding.md R89). -/
inductive Pseudo where
  | startPlayback (base : BitVec 32) (len : BitVec 24)
  | stopPlayback
  | tick
  | tickAutostop
  | scPeriod
  | pwPeriod
  deriving DecidableEq, Repr

/-- The expansion of a pseudo-instruction (30_encoding.md R89). -/
def Pseudo.expand (c : Config) : Pseudo → List Instr
  | .startPlayback base len => [.start base len]
  | .stopPlayback => [.stop]
  | .tick => [.isrEntry, .diagToggle, .loadSample, .writeCmp, .incCursor, .clearOvf, .reti]
  | .tickAutostop => [.isrEntry, .diagToggle, .loadSample, .clearOvf, .reti]
  | .scPeriod => List.replicate (c.scPerVal + 1) .scClk
  | .pwPeriod => List.replicate 256 .pwmClk

/-- An operation's mnemonic (30_encoding.md R81). -/
def mnemonic : Instr → String
  | .start _ _ => "START"
  | .stop => "STOP"
  | .scClk => "SC_CLK"
  | .pwmClk => "PWM_CLK"
  | .isrEntry => "ISR_ENTRY"
  | .diagToggle => "DIAG_TOGGLE"
  | .loadSample => "LOAD_SAMPLE"
  | .writeCmp => "WRITE_CMP"
  | .incCursor => "INC_CURSOR"
  | .clearOvf => "CLEAR_OVF"
  | .reti => "RETI"

/-- The step labels, the bare mnemonics that take a repeat count (30_encoding.md R88; DEDUCED: assumption log 16). -/
def stepLabels : List Instr :=
  [.scClk, .pwmClk, .isrEntry, .diagToggle, .loadSample, .writeCmp, .incCursor, .clearOvf, .reti]

/-- The step label a bare mnemonic names, case-sensitive (30_encoding.md R88). -/
def labelNamed (tok : String) : Option Instr := stepLabels.find? fun i => mnemonic i == tok

/-- The pseudo-instruction without arguments a token names (30_encoding.md R89). -/
def pseudoNamed (tok : String) : Option Pseudo :=
  if tok == "TICK" then some .tick
  else if tok == "TICK_AUTOSTOP" then some .tickAutostop
  else if tok == "SC_PERIOD" then some .scPeriod
  else if tok == "PW_PERIOD" then some .pwPeriod
  else none

/-- The value of a digit, decimal or hexadecimal. -/
def digitValue (ch : Char) : Option Nat :=
  let n := ch.toNat
  if 48 ≤ n ∧ n ≤ 57 then some (n - 48)
  else if 65 ≤ n ∧ n ≤ 70 then some (n - 55)
  else if 97 ≤ n ∧ n ≤ 102 then some (n - 87)
  else none

/-- Digits in a radix, most significant first, on top of what has been read. -/
def digits (radix : Nat) : Nat → List Char → Option Nat
  | acc, [] => some acc
  | acc, ch :: rest =>
    match digitValue ch with
    | some d => if d < radix then digits radix (acc * radix + d) rest else none
    | none => none

/-- A decimal or `0x` hexadecimal number (30_encoding.md R88). -/
def number : List Char → Option Nat
  | [] => none
  | ['0', 'x'] => none
  | '0' :: 'x' :: rest => digits 16 0 rest
  | cs => digits 10 0 cs

/-- Tokens of a line: `,`, `*`, `(` and `)` stand alone, blanks separate, and `;` starts a comment (30_encoding.md R88;
DEDUCED: assumption log 16). `cur` is the token being read, reversed. -/
def tokens (cur : List Char) : List Char → List (List Char)
  | [] => if cur = [] then [] else [cur.reverse]
  | ch :: rest =>
    let done : List (List Char) := if cur = [] then [] else [cur.reverse]
    if ch = ';' then done
    else if ch = ' ' ∨ ch = '\t' then done ++ tokens [] rest
    else if ch = ',' ∨ ch = '*' ∨ ch = '(' ∨ ch = ')' then done ++ [ch] :: tokens [] rest
    else tokens (ch :: cur) rest

/-- START's operands as the fields of its word, if they fit them (30_encoding.md R80). -/
def startOperands (base len : List Char) : Option (BitVec 32 × BitVec 24) :=
  match number base, number len with
  | some b, some n => if b < 2 ^ 32 ∧ n < 2 ^ 24 then some (BitVec.ofNat 32 b, BitVec.ofNat 24 n) else none
  | _, _ => none

/-- The operations one line of tokens stands for (30_encoding.md R88, R89); an empty line stands for none. -/
def assembleTokens (c : Config) : List (List Char) → Option (List Instr)
  | [] => some []
  | [m] =>
    if String.ofList m == "STOP" then some [.stop]
    else match labelNamed (String.ofList m), pseudoNamed (String.ofList m) with
      | some i, _ => some [i]
      | none, some p => some (p.expand c)
      | none, none => none
  | [m, ['*'], n] =>
    match labelNamed (String.ofList m), number n with
    | some i, some k => some (List.replicate k i)
    | _, _ => none
  | [m, b, [','], n] =>
    if String.ofList m == "START" then (startOperands b n).map fun (base, len) => [.start base len] else none
  | [m, ['('], [')']] => if String.ofList m == "StopPlayback" then some (Pseudo.stopPlayback.expand c) else none
  | [m, ['('], b, [','], n, [')']] =>
    if String.ofList m == "StartPlayback" then
      (startOperands b n).map fun (base, len) => (Pseudo.startPlayback base len).expand c
    else none
  | _ => none

/-- One line of assembly (30_encoding.md R88). -/
def assembleLine (c : Config) (line : String) : Option (List Instr) := assembleTokens c (tokens [] line.toList)

/-- A listing, line by line; none if a line is not in the syntax (30_encoding.md R88). -/
def assemble (c : Config) : List String → Option (List Instr)
  | [] => some []
  | line :: rest =>
    match assembleLine c line, assemble c rest with
    | some is, some more => some (is ++ more)
    | _, _ => none

/-- The turns of a listing: the host issues the commands, the block takes the step labels (30_encoding.md R80). -/
def turnsOf (is : List Instr) : List Turn := is.map Turn.ofInstr

end Sys2Proof.Machine
end

