-- ==== Sys2Proof/Safety.lean ====
section
/-! DEFINITION. What claims are made in: a safe state, the invariants of the machine, the states a run reaches, infinite
runs and weak fairness, and the compare writes since the last START. -/

namespace Sys2Proof.Machine

/-- A safe state: no fault is recorded. A claim whose runs reach another is refuted (60_exceptions.md R202). -/
def State.Safe (s : State) : Prop := s.faults = []

/-- Every register fits its launch width, the parameters are as 00_scope.md R7 asks, and sample memory is canonical and
inside its `MEM_SIZE` bytes (00_scope.md R9, 20_memory.md R60; assumption log 11). -/
structure State.Fits (s : State) : Prop where
  params : s.cfg.wf = true
  canonical : Memory.wf s.mem = true
  inside : Memory.within s.cfg.memSize s.mem = true
  base : ∀ b, s.bufBase = some b → b < 2 ^ s.cfg.addrW
  len : ∀ n, s.bufLen = some n → n < 2 ^ s.cfg.lenW
  cursor : s.cursor < 2 ^ s.cfg.cursorW
  per : s.scPer < 2 ^ s.cfg.scW
  cnt : s.scCnt < 2 ^ s.cfg.scW

/-- An enabled timer is configured as START leaves it, and the enable bits are consistent (10_state.md R30, R50,
41_sample_clock.md R102, 42_duty_cycle_output.md R142). -/
structure State.Configured (s : State) : Prop where
  sampleClock : s.scEn = true → s.scMode = .normal ∧ s.scPer = s.cfg.scPerVal
  buffer : s.scEn = true → s.bufBase.isSome = true ∧ s.bufLen.isSome = true
  pwm : s.pwEn = true → s.pwMode = .pwm8 ∧ s.pwPer = 255
  pin : s.pwEn = true → s.outDir = true ∧ s.route = true ∧ s.pwOuten = true
  pwmNeedsClock : s.pwEn = true → s.scEn = true
  interruptNeedsPwm : s.scOvfie = true → s.pwEn = true
  drained : s.pwEn = true → s.scOvfie = false → s.cfg.overrunPolicy = .autostop
  count : s.scCnt ≤ s.cfg.scPerVal
  flagNeedsClock : s.scOvf = true → s.scEn = true
  portLow : s.outLvl = false

/-- The handler's phase and what holds in it (10_state.md R25 to R29, 41_sample_clock.md R105 to R111). -/
structure State.HandlerSound (s : State) : Prop where
  pwmOn : s.phase ≠ .idle → s.pwEn = true
  masked : s.phase ≠ .idle → s.gie = false
  unmasked : s.phase = .idle → (s.gie = true ↔ s.scEn = true)
  flagHeld : s.phase ≠ .idle → s.phase ≠ .ret → s.scOvf = true
  enabled : s.phase = .a ∨ s.phase = .b ∨ s.phase = .c ∨ s.phase = .d → s.scOvfie = true
  sampleHeld : s.phase = .c → s.sampleTmp.isSome = true
  sampleNone : s.phase = .idle ∨ s.phase = .a ∨ s.phase = .b → s.sampleTmp = none
  inBuffer : s.phase = .c ∨ s.phase = .d → s.cfg.overrunPolicy ≠ .unchecked →
    ∀ n, s.bufLen = some n → s.cursor < n
  bounded : s.cfg.overrunPolicy ≠ .unchecked → ∀ n, s.bufLen = some n → s.cursor ≤ n
  wrapped : s.cfg.overrunPolicy = .wrap → ∀ n, s.bufLen = some n → s.cursor < n ∨ n = 0

/-- At most one fault is recorded, none of the codes 60_exceptions.md R201 calls unreachable (R206), and under `wrap`
OVERRUN for an empty buffer only (R201). -/
structure State.FaultsSound (s : State) : Prop where
  atMostOne : s.faults.length ≤ 1
  reachableCode : ∀ r ∈ s.faults, r.code ≠ .noBuffer ∧ r.code ≠ .unwrittenRead ∧ r.code ≠ .unmodelledConfig
  wrapOverrun : s.cfg.overrunPolicy = .wrap → ∀ r ∈ s.faults, r.code = .overrun → s.bufLen = some 0

/-- The invariant of the machine. -/
structure State.Inv (s : State) : Prop where
  fits : s.Fits
  configured : s.Configured
  handler : s.HandlerSound
  faults : s.FaultsSound

/-- One event's effect on the list of compare writes since the last START (10_state.md R52). -/
def playedStep (acc : List Byte) : Event → List Byte
  | .evStart _ _ => []
  | .evCmpWrite v => acc ++ [v]
  | .evStop | .evTick | .evTickLost | .evOverrunRead _ | .evAutoStop => acc

/-- The values written into the compare register since the last START, in order: what claims about playback observe
(10_state.md R52, 95_test_vectors.md L1-1). -/
def played (s : State) : List Byte := s.history.foldl playedStep []

/-- How many samples the current buffer has had played when the cursor is read: in phase D the write has happened and the
increment has not. -/
def playedBeforeCursor (s : State) : Nat :=
  if s.phase = .d then (played s).length - 1 else (played s).length

/-- The cursor counts the samples played: a handler run is in progress or ticks are taken (10_state.md R24). -/
def live (s : State) : Prop := s.scOvfie = true ∨ s.phase ≠ .idle

/-- The compare writes since the last START are the buffer's samples from index 0, in order (95_test_vectors.md L1-1, and
L1-6 under `wrap`), for the three policies that never read past the end. -/
structure State.Plays (s : State) : Prop where
  noBuffer : bufferHeld s = none → played s = []
  bytes : ∀ b n, bufferHeld s = some (b, n) →
    played s = (List.range (played s).length).map fun j => Memory.read s.mem (b + j % n)
  bound : ∀ b n, bufferHeld s = some (b, n) → s.cfg.overrunPolicy ≠ .wrap → (played s).length ≤ n
  cursor : ∀ b n, bufferHeld s = some (b, n) → live s →
    s.cursor = if s.cfg.overrunPolicy = .wrap then playedBeforeCursor s % n else playedBeforeCursor s
  written : s.phase = .d → 0 < (played s).length
  sample : ∀ b n v, bufferHeld s = some (b, n) → s.phase = .c → s.sampleTmp = some v →
    v = Memory.read s.mem (b + s.cursor)

/-- An answer with its next state changed by a function. -/
def mapNext (f : State → State) : Result → Result
  | .next s => .next (f s)
  | .fault r => .fault r
  | .refused r => .refused r

/-- `s` with the PWM timer and the audio pin of `u` (10_state.md section 7 and R45 to R47). -/
def State.withPwmOf (s u : State) : State :=
  { s with
    pwEn := u.pwEn, pwMode := u.pwMode, pwAsync := u.pwAsync, pwOuten := u.pwOuten, pwDiv := u.pwDiv, pwPer := u.pwPer,
    pwCmp := u.pwCmp, pwCmpAct := u.pwCmpAct, pwCnt := u.pwCnt, outDir := u.outDir, outLvl := u.outLvl, route := u.route }

/-- `s` with the Sample Clock of `u` (10_state.md section 6 and R28). -/
def State.withSampleClockOf (s u : State) : State :=
  { s with
    scOvf := u.scOvf, scEn := u.scEn, scOvfie := u.scOvfie, scMode := u.scMode, scDiv := u.scDiv, scPer := u.scPer,
    scCnt := u.scCnt }

/-- `s` with every field that no step reads set to one fixed value: the dividers, the clock source and frequency,
`pw_async`, the diagnostic pin and the history (10_state.md R33, R38, R40, R48, R49, R52, 70_reset_and_hazards.md R245). -/
def State.eraseUnread (s : State) : State :=
  { s with
    cfg := { s.cfg with fClk := 0 }, scDiv := ⟨0⟩, pwDiv := ⟨0⟩, clkSel := ⟨0⟩, pwAsync := false, diagLvl := false,
    history := [] }

/-- A launch: reset with parameters and sample memory as 00_scope.md R7 and 20_memory.md R60 ask, and any schedule. -/
def State.launched (cfg : Config) (mem : Memory) (turns : List Turn) (draws : Nat) : State :=
  { State.boot cfg mem with schedule := turns, draws := draws }

/-- The states of the runs from reset, over every choice of parameters, sample memory and interleaving (00_scope.md R11). -/
inductive Reachable : State → Prop where
  | launch (cfg : Config) (mem : Memory) (turns : List Turn) (draws : Nat) :
    cfg.wf = true → Memory.wf mem = true → Memory.within cfg.memSize mem = true →
      Reachable (State.launched cfg mem turns draws)
  | step {s t : State} : Reachable s → step s = .next t → Reachable t

/-- The agent whose turn it is, if the word names a step of one. -/
def turnAgent (s : State) (t : Turn) : Option Agent :=
  match t.issuer with
  | .host => some .h
  | .block =>
    match decodeHere s t.word with
    | .ok i => some i.agent
    | .error _ => none

/-- An agent has an enabled step: some turn of it answers a next state (00_scope.md R11, R12). -/
def Enabled (a : Agent) (s : State) : Prop := ∃ t u, turnAgent s t = some a ∧ takeTurn t s = .next u

/-- An infinite run: one turn after another (00_scope.md R11). -/
structure Run where
  state : Nat → State
  move : Nat → Turn
  taken : ∀ n, takeTurn (move n) (state n) = .next (state (n + 1))

/-- Weak fairness to one agent: if its step stays enabled, it is eventually scheduled (70_reset_and_hazards.md R245;
assumption log 17). -/
def Run.FairTo (r : Run) (a : Agent) : Prop :=
  ∀ n, (∀ m, n ≤ m → Enabled a (r.state m)) → ∃ m, n ≤ m ∧ turnAgent (r.state m) (r.move m) = some a

/-- Weak fairness to every agent, the only liveness assumption a claim may use (70_reset_and_hazards.md R245). A claim
assumes it of the agents it needs only. -/
def Run.WeaklyFair (r : Run) : Prop := ∀ a, r.FairTo a

end Sys2Proof.Machine
end

