-- ==== Sys2Proof/Certificates/Slice0/Obligations.lean ====
section
/-! DEFINITION. The statements for the provers, from the numbered rules of spec/. Where a rule marks its own reading
("the spec's own reading", "the spec's choice", "from general knowledge"), the docstring says so and names the decision of
92_eei_decisions.md. -/

open Sys2Proof Sys2Proof.Machine

/-! ## Encoding -/

/-- Decoding the word of a well-formed operation gives the operation back, with every operand at every value the widths
admit (30_encoding.md R80 to R83). -/
def Obligations.DecodeOfEncode : Prop :=
  ∀ (addrW lenW : Nat) (i : Instr), i.wf addrW lenW = true → decode addrW lenW (encode i) = .ok i

/-- A word that decodes is the word of the operation it decodes to, which is well formed: no second word means the same
(30_encoding.md R85). -/
def Obligations.EncodeOfDecode : Prop :=
  ∀ (addrW lenW : Nat) (w : Word) (i : Instr),
    decode addrW lenW w = .ok i → encode i = w ∧ i.wf addrW lenW = true

/-- The opcode map of 30_encoding.md R81, for a word whose operand bits are zero: the operation each code names and its
agent; every other code is reserved. -/
def Obligations.OpcodeMap : Prop :=
  (∀ (addrW lenW : Nat) (w : Word), w.toNat % 2 ^ 56 = 0 →
    decode addrW lenW w =
      match w.toNat / 2 ^ 56 with
      | 0x01 => .ok (.start 0 0)
      | 0x02 => .ok .stop
      | 0x80 => .ok .scClk
      | 0x81 => .ok .pwmClk
      | 0x90 => .ok .isrEntry
      | 0x91 => .ok .diagToggle
      | 0x92 => .ok .loadSample
      | 0x93 => .ok .writeCmp
      | 0x94 => .ok .incCursor
      | 0x95 => .ok .clearOvf
      | 0x96 => .ok .reti
      | _ => .error .reservedOpcode) ∧
  (∀ b n, (Instr.start b n).agent = .h) ∧ Instr.stop.agent = .h ∧ Instr.scClk.agent = .sc ∧
  Instr.pwmClk.agent = .pw ∧ Instr.isrEntry.agent = .ts ∧ Instr.diagToggle.agent = .ts ∧
  Instr.loadSample.agent = .ts ∧ Instr.writeCmp.agent = .ts ∧ Instr.incCursor.agent = .ts ∧
  Instr.clearOvf.agent = .ts ∧ Instr.reti.agent = .ts

/-- START's operands (30_encoding.md R82): `base` is `w[31:0]` and `len` is `w[55:32]`, zero-extended; in range the
command stores exactly them, out of range it is an illegal command. -/
def Obligations.StartOperands : Prop :=
  ∀ (s : State) (w : Word), s.faults = [] → s.phase = .idle → w.toNat / 2 ^ 56 = 0x01 →
    (w.toNat % 2 ^ 32 < 2 ^ s.cfg.addrW → w.toNat / 2 ^ 32 % 2 ^ 24 < 2 ^ s.cfg.lenW →
      ∃ t, takeTurn ⟨.host, w⟩ s = .next t ∧ t.faults = [] ∧
        t.bufBase = some (w.toNat % 2 ^ 32) ∧ t.bufLen = some (w.toNat / 2 ^ 32 % 2 ^ 24)) ∧
    (2 ^ s.cfg.addrW ≤ w.toNat % 2 ^ 32 ∨ 2 ^ s.cfg.lenW ≤ w.toNat / 2 ^ 32 % 2 ^ 24 →
      takeTurn ⟨.host, w⟩ s = .next { s with faults := [⟨.illegalCommand, some w.toNat⟩] })

/-- Every operation other than START has no operands (30_encoding.md R83): with a bit of `w[55:0]` set, a word with another
code is an illegal command when the host issues it and no step label when it stands in a trace. -/
def Obligations.OperandFreeWords : Prop :=
  ∀ (s : State) (w : Word), w.toNat / 2 ^ 56 ≠ 0x01 → w.toNat % 2 ^ 56 ≠ 0 →
    (s.faults = [] → s.phase = .idle →
      takeTurn ⟨.host, w⟩ s = .next { s with faults := [⟨.illegalCommand, some w.toNat⟩] }) ∧
    takeTurn ⟨.block, w⟩ s = .refused (.notAStepLabel w)

/-- An illegal command (30_encoding.md R84 to R86): every word the host issues that is neither STOP's nor a START in range
raises ILLEGAL_COMMAND with the word as its info and changes no other state, reserved codes and step labels among them. -/
def Obligations.IllegalCommandFault : Prop :=
  ∀ (s : State) (w : Word), s.faults = [] → s.phase = .idle →
    ¬ (w.toNat / 2 ^ 56 = 0x02 ∧ w.toNat % 2 ^ 56 = 0) →
    ¬ (w.toNat / 2 ^ 56 = 0x01 ∧ w.toNat % 2 ^ 32 < 2 ^ s.cfg.addrW ∧
        w.toNat / 2 ^ 32 % 2 ^ 24 < 2 ^ s.cfg.lenW) →
    takeTurn ⟨.host, w⟩ s = .next { s with faults := [⟨.illegalCommand, some w.toNat⟩] }

/-- Words written out in the spec decode to what it says (30_encoding.md R90, 95_test_vectors.md V-EN1 to V-EN8). -/
def Obligations.SpecWordsDecode : Prop :=
  decode 16 16 0x0100000300000100#64 = .ok (.start 0x0100 3) ∧
  decode 16 16 0x0100000000000000#64 = .ok (.start 0 0) ∧
  decode 16 16 0x0100FFFF0000FFFF#64 = .ok (.start 0xFFFF 0xFFFF) ∧
  decode 16 16 0x0101000000000000#64 = .error .lenOutOfRange ∧
  decode 16 16 0x0100000000010000#64 = .error .baseOutOfRange ∧
  decode 16 16 0x0200000000000000#64 = .ok .stop ∧
  decode 16 16 0x0200000000000001#64 = .error .operandBits ∧
  decode 16 16 0x8000000000000000#64 = .ok .scClk ∧
  decode 16 16 0x8100000000000000#64 = .ok .pwmClk ∧
  decode 16 16 0x9000000000000000#64 = .ok .isrEntry ∧
  decode 16 16 0x9300000000000000#64 = .ok .writeCmp ∧
  decode 16 16 0x9600000000000000#64 = .ok .reti ∧
  decode 16 16 0x0000000000000000#64 = .error .reservedOpcode ∧
  decode 16 16 0x9700000000000000#64 = .error .reservedOpcode

/-- A serialised step word is eight bytes, the lowest first, byte 0 holding bits 7:0, and reads back as the word
(20_memory.md R64). -/
def Obligations.BytesLittleEndian : Prop :=
  ∀ (w : Word) (rest : List Byte),
    wordOfBytes (bytesOfWord w ++ rest) = some (w, rest) ∧
    ∀ k : Nat, k < 8 → ((bytesOfWord w).map BitVec.toNat)[k]? = some (w.toNat / 2 ^ (8 * k) % 2 ^ 8)

/-! ## Steps and runs -/

/-- A step runs the decoded operation: with no fault recorded and a turn scheduled, `step` is `exec` of the operation the
turn's word decodes to, at the state with that turn taken off, where the turn is the host's and the operation a command or
the turn is the block's and the operation a step label (30_encoding.md R80, R84). With nothing scheduled it takes a drawn
turn, and only the draw counts if that turn is not enabled (the model's choice: assumption log 3). -/
def Obligations.StepRunsDecoded : Prop :=
  (∀ (s : State) (t : Turn) (rest : List Turn) (i : Instr),
    s.faults = [] → s.schedule = t :: rest → decode s.cfg.addrW s.cfg.lenW t.word = .ok i →
    (t.issuer = .host ↔ i.agent = .h) → step s = exec i { s with schedule := rest }) ∧
  (∀ s : State, s.faults = [] → s.schedule = [] →
    (∀ u, takeTurn (Config.drawTurn s.draws) { s with draws := s.draws + 1 } = .next u → step s = .next u) ∧
    (∀ r, takeTurn (Config.drawTurn s.draws) { s with draws := s.draws + 1 } = .refused r →
      step s = .next { s with draws := s.draws + 1 }))

/-- Every well-formed operation can run: placed as the next word of any state, the very next step runs exactly it, at the
state in which its guard holds, and takes a next state (the model's own placement: assumption log 4). -/
def Obligations.PlacedOperationRuns : Prop :=
  ∀ (s : State) (i : Instr), i.wf s.cfg.addrW s.cfg.lenW = true →
    ∃ t, step (s.withFetchWord 64 (encode i).toNat) = .next t ∧ exec i (enable i s) = .next t

/-- A recorded fault is permanent and stops the block: no operation and no step answers a next state any more
(60_exceptions.md R202), and no turn of any agent is taken. -/
def Obligations.FaultStopsBlock : Prop :=
  ∀ s : State, s.faults ≠ [] →
    step s = .fault .stopped ∧ (∀ i : Instr, exec i s = .fault .stopped) ∧
    ∀ (turn : Turn) (t : State), takeTurn turn s ≠ .next t

/-- The block writes no memory: after any step every address reads as before (20_memory.md R61, R63). The launch parameters
do not change either. -/
def Obligations.MemoryNeverWritten : Prop :=
  ∀ s t : State, step s = .next t →
    t.cfg = s.cfg ∧ ∀ addr : Nat, Memory.read t.mem addr = Memory.read s.mem addr ∧ memRead t addr = memRead s addr

/-- The read primitive (20_memory.md R62): an exact address inside `MEM_SIZE` gives the byte stored there, any other raises
MEM_RANGE with the address as its info. -/
def Obligations.MemReadPrimitive : Prop :=
  ∀ (s : State) (addr : Nat),
    (addr < s.cfg.memSize → memRead s addr = .ok (Memory.read s.mem addr)) ∧
    (s.cfg.memSize ≤ addr → memRead s addr = .error ⟨.memRange, some addr⟩)

/-- Sample memory reads as what it lists (20_memory.md R60, R62): in canonical form a listed byte reads as itself, through
the byte read and through the read primitive, and an address not listed reads as 00H. The list, and what an unlisted
address reads as, are the model's choice (assumption log 8). -/
def Obligations.MemoryReadsListed : Prop :=
  (∀ m : Memory, Memory.wf m = true →
    (∀ (addr : Nat) (v : Byte), (addr, v) ∈ m → Memory.read m addr = v) ∧
    ∀ addr : Nat, (∀ v : Byte, (addr, v) ∉ m) → Memory.read m addr = 0x00#8) ∧
  ∀ (s : State) (addr : Nat) (v : Byte),
    Memory.wf s.mem = true → (addr, v) ∈ s.mem → addr < s.cfg.memSize → memRead s addr = .ok v

/-! ## Lifecycle -/

/-- START (43_lifecycle.md R171): the buffer reference, the cursor, the clock source, SC_Configure (R101), PW_Configure
(R141) and the global interrupt enable, as one step; every other field is unchanged. `pw_cmp_act` is loaded at once only
if the PWM was stopped. That it is one step is the spec's choice (decision D20). With an operand out of range the operation
itself raises ILLEGAL_COMMAND with its own word, which is read from R82 and R85 by inference (assumption log 13). -/
def Obligations.StartEffect : Prop :=
  ∀ (s : State) (base : BitVec 32) (len : BitVec 24),
    (s.faults = [] → base.toNat < 2 ^ s.cfg.addrW → len.toNat < 2 ^ s.cfg.lenW →
      (s.phase = .idle →
        exec (.start base len) s = .next { s with
          bufBase := some base.toNat, bufLen := some len.toNat, cursor := 0, clkSel := s.cfg.clkSrcVal,
          scMode := .normal, scPer := s.cfg.scPerVal, scDiv := s.cfg.scDivVal, scEn := true, scOvfie := true,
          outDir := true, route := true, pwPer := 255, pwCmp := s.cfg.pwInitCmp,
          pwCmpAct := if s.pwEn = false then s.cfg.pwInitCmp else s.pwCmpAct,
          pwMode := .pwm8, pwAsync := true, pwOuten := true, pwDiv := s.cfg.pwDivVal, pwEn := true,
          gie := true, history := s.history ++ [.evStart base.toNat len.toNat] }) ∧
      (s.phase ≠ .idle → exec (.start base len) s = .refused (.notEnabled (.start base len)))) ∧
    (s.faults = [] → s.phase = .idle → 2 ^ s.cfg.addrW ≤ base.toNat ∨ 2 ^ s.cfg.lenW ≤ len.toNat →
      exec (.start base len) s =
        .next { s with faults := [⟨.illegalCommand, some (encode (.start base len)).toNat⟩] }) ∧
    encode (.start base len) = BitVec.ofNat 64 (0x01 * 2 ^ 56 + len.toNat * 2 ^ 32 + base.toNat)

/-- STOP (43_lifecycle.md R173): no further ticks, PWM off, port level low, cursor 0, and every other field unchanged;
safe at any time, before any START and when already Stopped. It does not clear a recorded fault. -/
def Obligations.StopEffect : Prop :=
  encode .stop = 0x0200000000000000#64 ∧
  ∀ s : State,
    (s.faults = [] → s.phase = .idle →
      exec .stop s = .next { s with
        scOvfie := false, pwEn := false, outLvl := false, cursor := 0, history := s.history ++ [.evStop] }) ∧
    (s.faults = [] → s.phase ≠ .idle → exec .stop s = .refused (.notEnabled .stop)) ∧
    (s.faults ≠ [] → exec .stop s = .fault .stopped)

/-- A host word, legal or not, is enabled exactly in phase IDLE: the host is held during a handler run, and RETI lifts the
hold (43_lifecycle.md R176). -/
def Obligations.HostHeldDuringHandler : Prop :=
  (∀ (s : State) (w : Word), s.faults = [] →
    ((∃ t, takeTurn ⟨.host, w⟩ s = .next t) ↔ s.phase = .idle)) ∧
  (∀ s t : State, exec .reti s = .next t → t.phase = .idle ∧ t.faults = [])

/-- A second STOP leaves every field as one STOP does, but for a second EvStop in the history (43_lifecycle.md R174, which
the spec derives from R173). -/
def Obligations.StopIdempotent : Prop :=
  ∀ s t : State, exec .stop s = .next t → exec .stop t = .next { t with history := t.history ++ [.evStop] }

/-- After a STOP nothing but a START moves the cursor, writes the compare register, starts a handler run or drives the
audio pin high, whatever the agents do (43_lifecycle.md R174, 95_test_vectors.md L1-5). -/
def Obligations.NoPlaybackAfterStop : Prop :=
  ∀ (s t u : State) (ops : List Instr), exec .stop s = .next t → (∀ i ∈ ops, mnemonic i ≠ "START") →
    execAll ops t = .next u →
    u.cursor = 0 ∧ u.pwCmp = s.pwCmp ∧ u.pwCmpAct = s.pwCmpAct ∧ u.pwCnt = s.pwCnt ∧ u.phase = .idle ∧
      playback u = .stopped ∧ played u = played s ∧ audioPin u = if s.outDir = true then .low else .hiz

/-- A restart with an overflow pending plays the new buffer from its first sample at once (43_lifecycle.md R172,
70_reset_and_hazards.md R238). -/
def Obligations.RestartPlaysNewBuffer : Prop :=
  ∀ (s : State) (base : BitVec 32) (len : BitVec 24),
    s.faults = [] → s.phase = .idle → s.scOvf = true → base.toNat < 2 ^ s.cfg.addrW → len.toNat < 2 ^ s.cfg.lenW →
    base.toNat ≠ s.cfg.nullAddr → 0 < len.toNat → base.toNat < s.cfg.memSize →
    ∃ t, execAll [.start base len, .isrEntry, .diagToggle, .loadSample, .writeCmp] s = .next t ∧ t.faults = [] ∧
      t.pwCmp = Memory.read s.mem base.toNat ∧ t.cursor = 0 ∧ played t = [Memory.read s.mem base.toNat]

/-! ## Sample Clock -/

/-- SC_CLK (41_sample_clock.md R102; the counting rule is the spec's own reading, decision D10): at TOP the counter returns
to 0 and the flag is set, else it counts modulo `2^SC_W`; every other field is unchanged. -/
def Obligations.SampleClockCount : Prop :=
  encode .scClk = 0x8000000000000000#64 ∧
  ∀ s : State, s.faults = [] →
    (s.scEn = false → exec .scClk s = .refused (.notEnabled .scClk)) ∧
    (s.scEn = true → (s.cfg.assumeNoTickLoss = false ∨ s.scCnt ≠ s.scPer ∨ s.scOvf = false ∨ s.scOvfie = false) →
      (s.scMode = .other → exec .scClk s = .next { s with faults := [⟨.unmodelledConfig, some 0⟩] }) ∧
      (s.scMode = .normal → s.scCnt = s.scPer → exec .scClk s = .next { s with
        scCnt := 0, scOvf := true,
        history := if s.scOvf = true ∧ s.scOvfie = true then s.history ++ [.evTickLost] else s.history }) ∧
      (s.scMode = .normal → s.scCnt ≠ s.scPer → exec .scClk s = .next { s with
        scCnt := (s.scCnt + 1) % 2 ^ s.cfg.scW }))

/-- Lost ticks (41_sample_clock.md R103): an overflow while the flag is set merges, and is recorded when the interrupt is
enabled; under ASSUME_NO_TICK_LOSS such an overflow is held until CLEAR_OVF or STOP lifts the hold. Which count is an
overflow is the spec's own reading (decision D10). -/
def Obligations.LostTicks : Prop :=
  ∀ s : State, s.faults = [] → s.scEn = true → s.scMode = .normal → s.scCnt = s.scPer → s.scOvf = true →
    (s.scOvfie = false → exec .scClk s = .next { s with scCnt := 0 }) ∧
    (s.scOvfie = true → s.cfg.assumeNoTickLoss = false →
      exec .scClk s = .next { s with scCnt := 0, history := s.history ++ [.evTickLost] }) ∧
    (s.scOvfie = true → s.cfg.assumeNoTickLoss = true →
      exec .scClk s = .refused (.notEnabled .scClk) ∧
      (s.phase = .e → ∃ t u, exec .clearOvf s = .next t ∧ exec .scClk t = .next u ∧ u.scCnt = 0 ∧ u.scOvf = true ∧
        u.history = s.history) ∧
      (s.phase = .idle → ∃ t u, exec .stop s = .next t ∧ exec .scClk t = .next u ∧ u.scCnt = 0 ∧ u.scOvf = true ∧
        u.history = s.history ++ [.evStop]))

/-- Under ASSUME_NO_TICK_LOSS no operation ever records a lost tick (41_sample_clock.md R103). -/
def Obligations.NoTickLossAssumed : Prop :=
  ∀ (i : Instr) (s t : State), s.cfg.assumeNoTickLoss = true → exec i s = .next t →
    t.history.count .evTickLost = s.history.count .evTickLost

/-- One sample period (30_encoding.md R89, 41_sample_clock.md R102, decision D10): from a counter of 0 the first `sc_per`
counts overflow nowhere, and the next one overflows. -/
def Obligations.SamplePeriodOverflowsOnce : Prop :=
  ∀ s : State, s.faults = [] → s.scEn = true → s.scMode = .normal → s.scCnt = 0 → s.scOvf = false →
    s.scPer < 2 ^ s.cfg.scW →
    (∀ k : Nat, k ≤ s.scPer → execAll (List.replicate k .scClk) s = .next { s with scCnt := k }) ∧
    execAll (List.replicate (s.scPer + 1) .scClk) s = .next { s with scCnt := 0, scOvf := true }

/-! ## Tick sequencer -/

/-- ISR_ENTRY (41_sample_clock.md R105, 60_exceptions.md R207; that entry clears `gie` is the spec's general knowledge,
decision D12): taken exactly when pending, enabled, globally enabled and no handler run is in progress. -/
def Obligations.InterruptEntry : Prop :=
  encode .isrEntry = 0x9000000000000000#64 ∧
  ∀ s : State, s.faults = [] →
    (s.phase = .idle ∧ s.gie = true ∧ s.scOvfie = true ∧ s.scOvf = true →
      exec .isrEntry s = .next { s with gie := false, phase := .a, history := s.history ++ [.evTick] }) ∧
    (¬ (s.phase = .idle ∧ s.gie = true ∧ s.scOvfie = true ∧ s.scOvf = true) →
      exec .isrEntry s = .refused (.notEnabled .isrEntry))

/-- DIAG_TOGGLE (41_sample_clock.md R106). -/
def Obligations.DiagnosticToggle : Prop :=
  encode .diagToggle = 0x9100000000000000#64 ∧
  ∀ s : State, s.faults = [] →
    (s.phase = .a → s.cfg.diagHook = true →
      exec .diagToggle s = .next { s with diagLvl := !s.diagLvl, phase := .b }) ∧
    (s.phase = .a → s.cfg.diagHook = false → exec .diagToggle s = .next { s with phase := .b }) ∧
    (s.phase ≠ .a → exec .diagToggle s = .refused (.notEnabled .diagToggle))

/-- LOAD_SAMPLE (41_sample_clock.md R107, with the effective address of R113): the faults in their order, the three overrun
policies' effects, and the in-buffer read. Under `unchecked` the byte held is some byte, which one is not said: it is a free
value (assumption log 9), and the model's own draw count goes up by one (assumption log 21). -/
def Obligations.LoadSampleEffect : Prop :=
  encode .loadSample = 0x9200000000000000#64 ∧
  ∀ s : State, s.faults = [] →
    (s.phase ≠ .b → exec .loadSample s = .refused (.notEnabled .loadSample)) ∧
    (s.phase = .b →
      (s.bufBase = none ∨ s.bufLen = none →
        exec .loadSample s = .next { s with faults := [⟨.noBuffer, none⟩] }) ∧
      ∀ base len : Nat, s.bufBase = some base → s.bufLen = some len →
        (base = s.cfg.nullAddr →
          exec .loadSample s = .next { s with faults := [⟨.nullBuffer, some s.cursor⟩] }) ∧
        (base ≠ s.cfg.nullAddr → len ≤ s.cursor →
          (s.cfg.overrunPolicy = .fault ∨ s.cfg.overrunPolicy = .wrap →
            exec .loadSample s = .next { s with faults := [⟨.overrun, some s.cursor⟩] }) ∧
          (s.cfg.overrunPolicy = .autostop →
            exec .loadSample s = .next { s with
              scOvfie := false, phase := .e, history := s.history ++ [.evAutoStop] }) ∧
          (s.cfg.overrunPolicy = .unchecked →
            ∃ v : Byte, exec .loadSample s = .next { s with
              sampleTmp := some v, phase := .c, history := s.history ++ [.evOverrunRead s.cursor],
              draws := s.draws + 1 })) ∧
        (base ≠ s.cfg.nullAddr → s.cursor < len →
          (base + s.cursor < s.cfg.memSize →
            exec .loadSample s = .next { s with
              sampleTmp := some (Memory.read s.mem (base + s.cursor)), phase := .c }) ∧
          (s.cfg.memSize ≤ base + s.cursor →
            exec .loadSample s = .next { s with faults := [⟨.memRange, some (base + s.cursor)⟩] })))

/-- WRITE_CMP (41_sample_clock.md R108): the byte held goes to the compare register, whether it changes or not. -/
def Obligations.WriteCompareEffect : Prop :=
  encode .writeCmp = 0x9300000000000000#64 ∧
  ∀ s : State, s.faults = [] →
    (s.phase ≠ .c → exec .writeCmp s = .refused (.notEnabled .writeCmp)) ∧
    (s.phase = .c → s.sampleTmp = none →
      exec .writeCmp s = .next { s with faults := [⟨.unwrittenRead, none⟩] }) ∧
    (∀ v : Byte, s.phase = .c → s.sampleTmp = some v →
      exec .writeCmp s = .next { s with pwCmp := v, phase := .d, history := s.history ++ [.evCmpWrite v] })

/-- INC_CURSOR (41_sample_clock.md R109): one more, modulo `2^CURSOR_W`, or back to 0 after the last sample under
`wrap`. -/
def Obligations.IncrementCursorEffect : Prop :=
  encode .incCursor = 0x9400000000000000#64 ∧
  ∀ s : State, s.faults = [] →
    (s.phase ≠ .d → exec .incCursor s = .refused (.notEnabled .incCursor)) ∧
    (s.phase = .d →
      (s.cfg.overrunPolicy ≠ .wrap →
        exec .incCursor s = .next { s with cursor := (s.cursor + 1) % 2 ^ s.cfg.cursorW, phase := .e }) ∧
      (s.cfg.overrunPolicy = .wrap → ∀ len, s.bufLen = some len →
        exec .incCursor s = .next { s with
          cursor := if len ≤ s.cursor + 1 then 0 else s.cursor + 1, phase := .e }))

/-- INC_CURSOR under `wrap` with no length held, which no run reaches and where the spec states no result: the cursor is a
free value that fits its width, the model's choice (assumption log 10); every other effect is as always. -/
def Obligations.IncrementCursorWithoutLength : Prop :=
  ∀ s : State, s.faults = [] → s.phase = .d → s.cfg.overrunPolicy = .wrap → s.bufLen = none →
    ∃ c : Nat, c < 2 ^ s.cfg.cursorW ∧
      exec .incCursor s = .next { s with cursor := c, phase := .e, draws := s.draws + 1 }

/-- CLEAR_OVF (41_sample_clock.md R110). -/
def Obligations.ClearOverflowEffect : Prop :=
  encode .clearOvf = 0x9500000000000000#64 ∧
  ∀ s : State, s.faults = [] →
    (s.phase = .e → exec .clearOvf s = .next { s with scOvf := false, phase := .ret }) ∧
    (s.phase ≠ .e → exec .clearOvf s = .refused (.notEnabled .clearOvf))

/-- RETI (41_sample_clock.md R111, 60_exceptions.md R208; that return sets `gie` is the spec's general knowledge, decision
D12): it restores nothing else. -/
def Obligations.InterruptReturn : Prop :=
  encode .reti = 0x9600000000000000#64 ∧
  ∀ s : State, s.faults = [] →
    (s.phase = .ret → exec .reti s = .next { s with gie := true, sampleTmp := none, phase := .idle }) ∧
    (s.phase ≠ .ret → exec .reti s = .refused (.notEnabled .reti))

/-- The phase takes only the transitions of 10_state.md R27, one for each step of the tick sequencer that raises no fault;
no other step moves it. -/
def Obligations.PhaseTransitions : Prop :=
  ∀ (i : Instr) (s t : State), exec i s = .next t →
    (t.faults ≠ [] → t.phase = s.phase) ∧
    (t.faults = [] → i.agent ≠ .ts → t.phase = s.phase) ∧
    (t.faults = [] → i.agent = .ts →
      (i, s.phase, t.phase) ∈ [(.isrEntry, .idle, .a), (.diagToggle, .a, .b), (.loadSample, .b, .c),
          (.writeCmp, .c, .d), (.incCursor, .d, .e), (.clearOvf, .e, .ret), (.reti, .ret, .idle)] ∨
        i = .loadSample ∧ s.phase = .b ∧ t.phase = .e ∧ s.cfg.overrunPolicy = .autostop)

/-- A handler run inside the buffer, with the counters stepping anywhere between its steps, plays exactly one sample and
moves the cursor by one, or back to 0 after the last sample under `wrap` (41_sample_clock.md R115, which the spec derives
from R105 to R111). -/
def Obligations.HandlerRunPlaysOneSample : Prop :=
  ∀ (s t : State) (ops : List Instr) (base len : Nat),
    s.Fits → bufferHeld s = some (base, len) → base ≠ s.cfg.nullAddr → s.cursor < len →
    base + s.cursor < s.cfg.memSize → (∀ i ∈ ops, i.agent ≠ .h) →
    ops.filter (fun i => decide (i.agent = .ts)) = Pseudo.tick.expand s.cfg → execAll ops s = .next t →
    t.faults = [] →
    t.pwCmp = Memory.read s.mem (base + s.cursor) ∧
    t.cursor = (if s.cfg.overrunPolicy = .wrap ∧ s.cursor + 1 = len then 0 else s.cursor + 1) ∧
    t.diagLvl = (if s.cfg.diagHook = true then !s.diagLvl else s.diagLvl) ∧
    t.phase = .idle ∧ t.gie = true ∧ t.sampleTmp = none ∧
    (∃ es, t.history = s.history ++ es ∧
      es.filter (fun e => decide (e ≠ .evTickLost)) =
        [.evTick, .evCmpWrite (Memory.read s.mem (base + s.cursor))]) ∧
    (∀ before after, ops = before ++ .clearOvf :: after → .scClk ∉ after → t.scOvf = false)

/-- Such a handler run completes wherever the interrupt is taken (41_sample_clock.md R104, R115). -/
def Obligations.HandlerRunCompletes : Prop :=
  ∀ (s : State) (base len : Nat),
    s.Fits → s.faults = [] → s.phase = .idle → s.gie = true → s.scOvfie = true → s.scOvf = true →
    bufferHeld s = some (base, len) → base ≠ s.cfg.nullAddr → s.cursor < len → base + s.cursor < s.cfg.memSize →
    execAll (Pseudo.tick.expand s.cfg) s = .next { s with
      pwCmp := Memory.read s.mem (base + s.cursor),
      cursor := if s.cfg.overrunPolicy = .wrap ∧ s.cursor + 1 = len then 0 else s.cursor + 1,
      diagLvl := if s.cfg.diagHook = true then !s.diagLvl else s.diagLvl,
      scOvf := false, sampleTmp := none,
      history := s.history ++ [.evTick, .evCmpWrite (Memory.read s.mem (base + s.cursor))] }

/-- Under `autostop` a tick past the end stops the ticks and leaves the compare register and the cursor as they were, in the
state Drained (41_sample_clock.md R114, 30_encoding.md R89). -/
def Obligations.AutoStopRun : Prop :=
  ∀ (s : State) (base len : Nat),
    s.faults = [] → s.phase = .idle → s.gie = true → s.scOvfie = true → s.scOvf = true → s.pwEn = true →
    s.cfg.overrunPolicy = .autostop → bufferHeld s = some (base, len) → base ≠ s.cfg.nullAddr → len ≤ s.cursor →
    ∃ t, execAll (Pseudo.tickAutostop.expand s.cfg) s = .next t ∧
      t = { s with
        scOvfie := false, scOvf := false, sampleTmp := none,
        diagLvl := if s.cfg.diagHook = true then !s.diagLvl else s.diagLvl,
        history := s.history ++ [.evTick, .evAutoStop] } ∧
      playback t = .drained ∧ exec .isrEntry t = .refused (.notEnabled .isrEntry)

/-! ## Duty-Cycle Output -/

/-- PWM_CLK (42_duty_cycle_output.md R142; the counting rule is the spec's own reading, decision D16): at the end of a
period the counter returns to 0 and the written compare value reaches the waveform. -/
def Obligations.PwmCount : Prop :=
  encode .pwmClk = 0x8100000000000000#64 ∧
  ∀ s : State, s.faults = [] →
    (s.pwEn = false → exec .pwmClk s = .refused (.notEnabled .pwmClk)) ∧
    (s.pwEn = true → s.pwMode = .other →
      exec .pwmClk s = .next { s with faults := [⟨.unmodelledConfig, some 1⟩] }) ∧
    (s.pwEn = true → s.pwMode = .pwm8 → s.pwPer.toNat ≤ s.pwCnt.toNat →
      exec .pwmClk s = .next { s with pwCnt := 0, pwCmpAct := s.pwCmp }) ∧
    (s.pwEn = true → s.pwMode = .pwm8 → s.pwCnt.toNat < s.pwPer.toNat →
      exec .pwmClk s = .next { s with pwCnt := BitVec.ofNat 8 (s.pwCnt.toNat + 1) })

/-- The compare value the waveform uses changes only when PWM_CLK ends a period, or when START configures a stopped PWM
(42_duty_cycle_output.md R143 and R141; the latch point is the spec's choice, decision D17). -/
def Obligations.CompareLatch : Prop :=
  ∀ (i : Instr) (s t : State), exec i s = .next t → t.pwCmpAct ≠ s.pwCmpAct →
    (i = .pwmClk ∧ s.pwPer.toNat ≤ s.pwCnt.toNat ∧ t.pwCnt = 0 ∧ t.pwCmpAct = s.pwCmp) ∨
    (mnemonic i = "START" ∧ s.pwEn = false ∧ t.pwCmpAct = s.cfg.pwInitCmp)

/-- The audio pin's level (42_duty_cycle_output.md R144; polarity and pin model are the spec's choice, decisions D16 and
D18). -/
def Obligations.AudioPinLevel : Prop :=
  ∀ s : State,
    (audioPin s = .hiz ↔ s.outDir = false) ∧
    (s.outDir = true → s.pwEn = true ∧ s.pwOuten = true ∧ s.route = true →
      (audioPin s = .high ↔ s.pwCnt.toNat < s.pwCmpAct.toNat)) ∧
    (s.outDir = true → ¬ (s.pwEn = true ∧ s.pwOuten = true ∧ s.route = true) →
      (audioPin s = .high ↔ s.outLvl = true))

/-- Over one PWM period the pin is HIGH for exactly `pw_cmp_act` of its 256 counts (42_duty_cycle_output.md R145, which the
spec derives from R142 and R144, decision D16). -/
def Obligations.DutyCycle : Prop :=
  ∀ s : State, s.faults = [] → s.pwEn = true → s.pwMode = .pwm8 → s.pwPer = 255 → s.pwCnt = 0 → s.outDir = true →
    s.pwOuten = true → s.route = true →
    (∀ k : Nat, k < 256 →
      execAll (List.replicate k .pwmClk) s = .next { s with pwCnt := BitVec.ofNat 8 k }) ∧
    (List.range 256).countP (fun k =>
      decide ((nextState (execAll (List.replicate k .pwmClk) s)).map audioPin = some .high)) = s.pwCmpAct.toNat

/-- A byte written by WRITE_CMP reaches the waveform at the end of the PWM period and not before
(42_duty_cycle_output.md R143, 70_reset_and_hazards.md R239; the latch point is the spec's choice, decision D17). -/
def Obligations.CompareWriteLatency : Prop :=
  ∀ (s : State) (v : Byte),
    s.faults = [] → s.phase = .c → s.sampleTmp = some v → s.pwEn = true → s.pwMode = .pwm8 → s.pwPer = 255 →
    ∃ t, exec .writeCmp s = .next t ∧
      (∀ k : Nat, k < 256 - s.pwCnt.toNat →
        ∃ u, execAll (List.replicate k .pwmClk) t = .next u ∧ u.pwCmpAct = s.pwCmpAct) ∧
      ∃ u, execAll (List.replicate (256 - s.pwCnt.toNat) .pwmClk) t = .next u ∧ u.pwCmpAct = v ∧ u.pwCnt = 0

/-- Disable (42_duty_cycle_output.md R146): only STOP clears `pw_en`; after it PWM_CLK is not enabled, the counter and the
latch keep their values, and the pin is silenced. -/
def Obligations.StopSilencesPin : Prop :=
  (∀ (i : Instr) (s t : State), exec i s = .next t → s.pwEn = true → t.pwEn = false → i = .stop) ∧
  (∀ s t : State, exec .stop s = .next t →
    t.pwEn = false ∧ exec .pwmClk t = .refused (.notEnabled .pwmClk) ∧ t.pwCnt = s.pwCnt ∧
      t.pwCmpAct = s.pwCmpAct ∧ t.outLvl = false ∧ audioPin t = if s.outDir = true then .low else .hiz)

/-- The compare register is written only by PW_Configure, with the initial value, and by WRITE_CMP, with the byte held
(42_duty_cycle_output.md R147). -/
def Obligations.CompareWriters : Prop :=
  ∀ (i : Instr) (s t : State), exec i s = .next t → t.pwCmp ≠ s.pwCmp →
    (i = .writeCmp ∧ s.sampleTmp = some t.pwCmp) ∨ (mnemonic i = "START" ∧ t.pwCmp = s.cfg.pwInitCmp)

/-- The two counters are independent: SC_CLK does the same whatever the PWM and the pin hold and leaves them alone, and
PWM_CLK does the same whatever the Sample Clock holds and leaves it alone (42_duty_cycle_output.md R148). -/
def Obligations.CountersIndependent : Prop :=
  ∀ s u : State,
    exec .scClk (s.withPwmOf u) = mapNext (fun t => t.withPwmOf u) (exec .scClk s) ∧
    exec .pwmClk (s.withSampleClockOf u) = mapNext (fun t => t.withSampleClockOf u) (exec .pwmClk s)

/-! ## The whole machine -/

/-- No step reads the dividers, the clock source and frequency, `pw_async`, the diagnostic pin or the history: what it does
to every other field, and whether it is enabled, does not depend on them (10_state.md R33, R38, R40, R49, R52,
41_sample_clock.md R106, 42_duty_cycle_output.md R149). -/
def Obligations.UnreadFields : Prop :=
  ∀ (i : Instr) (s : State),
    mapNext State.eraseUnread (exec i s) = mapNext State.eraseUnread (exec i s.eraseUnread)

/-- Each field is changed only by the operations the field summary of 10_state.md section 1 lists for it; the launch
parameters, sample memory and the schedule by none, the draw count only by an operation that takes a free value. -/
def Obligations.FieldWriters : Prop :=
  ∀ (i : Instr) (s t : State), exec i s = .next t →
    t.cfg = s.cfg ∧ t.mem = s.mem ∧ t.schedule = s.schedule ∧
    (t.bufBase ≠ s.bufBase → mnemonic i ∈ ["START"]) ∧
    (t.bufLen ≠ s.bufLen → mnemonic i ∈ ["START"]) ∧
    (t.cursor ≠ s.cursor → mnemonic i ∈ ["START", "STOP", "INC_CURSOR"]) ∧
    (t.sampleTmp ≠ s.sampleTmp → mnemonic i ∈ ["LOAD_SAMPLE", "RETI"]) ∧
    (t.phase ≠ s.phase → i.agent = .ts) ∧
    (t.scOvf ≠ s.scOvf → mnemonic i ∈ ["SC_CLK", "CLEAR_OVF"]) ∧
    (t.gie ≠ s.gie → mnemonic i ∈ ["START", "ISR_ENTRY", "RETI"]) ∧
    (t.scEn ≠ s.scEn → mnemonic i ∈ ["START"]) ∧
    (t.scOvfie ≠ s.scOvfie → mnemonic i ∈ ["START", "STOP", "LOAD_SAMPLE"]) ∧
    (t.scMode ≠ s.scMode → mnemonic i ∈ ["START"]) ∧
    (t.scDiv ≠ s.scDiv → mnemonic i ∈ ["START"]) ∧
    (t.scPer ≠ s.scPer → mnemonic i ∈ ["START"]) ∧
    (t.scCnt ≠ s.scCnt → mnemonic i ∈ ["SC_CLK"]) ∧
    (t.pwEn ≠ s.pwEn → mnemonic i ∈ ["START", "STOP"]) ∧
    (t.pwMode ≠ s.pwMode → mnemonic i ∈ ["START"]) ∧
    (t.pwAsync ≠ s.pwAsync → mnemonic i ∈ ["START"]) ∧
    (t.pwOuten ≠ s.pwOuten → mnemonic i ∈ ["START"]) ∧
    (t.pwDiv ≠ s.pwDiv → mnemonic i ∈ ["START"]) ∧
    (t.pwPer ≠ s.pwPer → mnemonic i ∈ ["START"]) ∧
    (t.pwCmp ≠ s.pwCmp → mnemonic i ∈ ["START", "WRITE_CMP"]) ∧
    (t.pwCmpAct ≠ s.pwCmpAct → mnemonic i ∈ ["START", "PWM_CLK"]) ∧
    (t.pwCnt ≠ s.pwCnt → mnemonic i ∈ ["PWM_CLK"]) ∧
    (t.outDir ≠ s.outDir → mnemonic i ∈ ["START"]) ∧
    (t.outLvl ≠ s.outLvl → mnemonic i ∈ ["STOP"]) ∧
    (t.route ≠ s.route → mnemonic i ∈ ["START"]) ∧
    (t.diagLvl ≠ s.diagLvl → mnemonic i ∈ ["DIAG_TOGGLE"]) ∧
    (t.clkSel ≠ s.clkSel → mnemonic i ∈ ["START"]) ∧
    (t.draws ≠ s.draws → mnemonic i ∈ ["LOAD_SAMPLE", "INC_CURSOR"])

/-- The interrupt's controls (60_exceptions.md R204): only SC_CLK at overflow sets the flag and only CLEAR_OVF clears it;
only START sets the enable, and only STOP or an `autostop` overrun clears it; only START and RETI set the global mask, and
only ISR_ENTRY clears it; each of these does so whenever it runs, the overrun too; ISR_ENTRY runs exactly where all three are
set and the sequencer is idle. Which count is an overflow is the spec's own reading (decision D10), and that entry clears
the mask and return sets it is its general knowledge (decision D12). -/
def Obligations.InterruptControls : Prop :=
  (∀ (i : Instr) (s t : State), exec i s = .next t →
    (s.scOvf = false → t.scOvf = true → i = .scClk ∧ s.scCnt = s.scPer ∧ t.scCnt = 0) ∧
    (s.scOvf = true → t.scOvf = false → i = .clearOvf) ∧
    (s.scOvfie = false → t.scOvfie = true → mnemonic i = "START") ∧
    (s.scOvfie = true → t.scOvfie = false →
      i = .stop ∨ i = .loadSample ∧ s.cfg.overrunPolicy = .autostop ∧ t.phase = .e) ∧
    (s.gie = false → t.gie = true → mnemonic i = "START" ∨ i = .reti) ∧
    (s.gie = true → t.gie = false → i = .isrEntry) ∧
    (t.faults = [] →
      match i with
      | .start _ _ => t.scOvfie = true ∧ t.gie = true
      | .stop => t.scOvfie = false
      | .scClk => s.scCnt = s.scPer → t.scOvf = true
      | .isrEntry => t.gie = false
      | .clearOvf => t.scOvf = false
      | .reti => t.gie = true
      | .loadSample => s.cfg.overrunPolicy = .autostop → ∀ n, s.bufLen = some n → n ≤ s.cursor → t.scOvfie = false
      | .pwmClk | .diagToggle | .writeCmp | .incCursor => True)) ∧
  (∀ s : State, (∃ t, exec .isrEntry s = .next t) ↔
    s.faults = [] ∧ s.scOvf = true ∧ s.scOvfie = true ∧ s.gie = true ∧ s.phase = .idle)

/-- The events each operation emits (10_state.md R52): the history only grows, by at most one event, and by none when a
fault is raised. -/
def Obligations.EventsEmitted : Prop :=
  ∀ (i : Instr) (s t : State), exec i s = .next t →
    (t.faults ≠ [] → t.history = s.history) ∧
    (t.faults = [] →
      match i with
      | .start _ _ => ∃ b n, t.bufBase = some b ∧ t.bufLen = some n ∧ t.history = s.history ++ [.evStart b n]
      | .stop => t.history = s.history ++ [.evStop]
      | .isrEntry => t.history = s.history ++ [.evTick]
      | .writeCmp => t.history = s.history ++ [.evCmpWrite t.pwCmp]
      | .scClk => t.history = s.history ∨ t.history = s.history ++ [.evTickLost]
      | .loadSample => t.history = s.history ∨
          s.cfg.overrunPolicy = .unchecked ∧ t.history = s.history ++ [.evOverrunRead s.cursor] ∨
          s.cfg.overrunPolicy = .autostop ∧ t.history = s.history ++ [.evAutoStop]
      | .pwmClk | .diagToggle | .incCursor | .clearOvf | .reti => t.history = s.history)

/-- A step that raises a fault changes nothing else, records exactly one pair, and the pair is the one the table of
60_exceptions.md R201 gives for its cause (R206). Under `wrap` OVERRUN is for an empty buffer only, in every state of the
machine's invariant. -/
def Obligations.FaultTable : Prop :=
  ∀ (i : Instr) (s t : State), exec i s = .next t → t.faults ≠ [] →
    ∃ r : FaultRecord, t = { s with faults := [r] } ∧
      (match r.code with
        | .overrun => i = .loadSample ∧ r.info = some s.cursor ∧ (∃ n, s.bufLen = some n ∧ n ≤ s.cursor) ∧
            (s.cfg.overrunPolicy = .fault ∨
              s.cfg.overrunPolicy = .wrap ∧ (s.Inv → s.bufLen = some 0))
        | .nullBuffer => i = .loadSample ∧ r.info = some s.cursor ∧ s.bufBase = some s.cfg.nullAddr
        | .noBuffer => i = .loadSample ∧ r.info = none ∧ (s.bufBase = none ∨ s.bufLen = none)
        | .memRange => i = .loadSample ∧
            ∃ b, s.bufBase = some b ∧ r.info = some (b + s.cursor) ∧ s.cfg.memSize ≤ b + s.cursor
        | .illegalCommand => mnemonic i = "START" ∧ i.wf s.cfg.addrW s.cfg.lenW = false ∧
            r.info = some (encode i).toNat
        | .unwrittenRead => i = .writeCmp ∧ r.info = none ∧ s.sampleTmp = none
        | .unmodelledConfig => i = .scClk ∧ r.info = some 0 ∧ s.scMode = .other ∨
            i = .pwmClk ∧ r.info = some 1 ∧ s.pwMode = .other)

/-- Right after reset every field the spec gives a reset value has it, for every choice of launch parameters and sample
memory (70_reset_and_hazards.md R230, 10_state.md section 1). Nothing is said of the nine unspecified fields; which
parameters and memory `State.reset` itself launches with is the model's choice (assumption logs 2 and 8). -/
def Obligations.ResetValues : Prop :=
  (∀ (cfg : Config) (mem : Memory),
    let s := State.boot cfg mem
    s.bufBase = none ∧ s.bufLen = none ∧ s.cursor = 0 ∧ s.sampleTmp = none ∧ s.phase = .idle ∧ s.scOvf = false ∧
    s.gie = false ∧ s.scEn = false ∧ s.scOvfie = false ∧ s.scCnt = 0 ∧ s.pwEn = false ∧ s.pwAsync = false ∧
    s.pwOuten = false ∧ s.pwCnt = 0 ∧ s.outDir = false ∧ s.outLvl = false ∧ s.route = false ∧ s.diagLvl = false ∧
    s.faults = [] ∧ s.history = [] ∧ s.cfg = cfg ∧ s.mem = mem) ∧
  State.reset = State.boot Config.launch []

/-- Immediately after reset the block is Stopped, its pin high-impedance, no step of a counter or of the sequencer is
enabled, and every host word is (70_reset_and_hazards.md R231, which the spec derives). -/
def Obligations.OnlyHostAfterReset : Prop :=
  ∀ (cfg : Config) (mem : Memory),
    playback (State.boot cfg mem) = .stopped ∧ audioPin (State.boot cfg mem) = .hiz ∧
    (∀ i : Instr, i.agent ≠ .h → exec i (State.boot cfg mem) = .refused (.notEnabled i)) ∧
    (∀ w : Word, ∃ t, takeTurn ⟨.host, w⟩ (State.boot cfg mem) = .next t)

/-- The invariant of the machine holds right after reset. -/
def Obligations.InvariantAtReset : Prop := State.Inv State.reset

/-- Every step keeps the invariant of the machine: registers fit their widths, sample memory stays canonical, an enabled
timer is configured as START leaves it, the handler's phase agrees with the mask, the flag and the byte held, and no fault
the spec calls unreachable is recorded. -/
def Obligations.StepKeepsInvariant : Prop :=
  ∀ s t : State, s.Inv → step s = .next t → t.Inv

/-- Playback order is kept by every step: for the three policies that never read past the end, the values written into the
compare register since the last START are the buffer's samples from index 0, in order (95_test_vectors.md L1-1, L1-6). -/
def Obligations.StepKeepsPlaybackOrder : Prop :=
  ∀ s t : State, s.cfg.overrunPolicy ≠ .unchecked → s.Inv → s.Plays → step s = .next t → t.Plays

/-- In every run from reset, over every interleaving, the k-th value written since the last START is sample k of the buffer
(sample k mod length under `wrap`), and without `wrap` no more than the buffer's length are written (95_test_vectors.md
L1-1, L1-6, 41_sample_clock.md R115). -/
def Obligations.RunsPlayBufferInOrder : Prop :=
  ∀ (s : State) (base len : Nat), Reachable s → s.cfg.overrunPolicy ≠ .unchecked → bufferHeld s = some (base, len) →
    (∀ (k : Nat) (v : Byte), (played s)[k]? = some v → v = Memory.read s.mem (base + k % len)) ∧
    (s.cfg.overrunPolicy ≠ .wrap → (played s).length ≤ len)

/-- In no run from reset is the Sample Clock's interrupt enabled with the PWM off, or the state Drained without `autostop`,
or a fault of code 3, 6 or 7 recorded, or under `wrap` a buffer overrun that is not empty, and at most one fault ever is
recorded (10_state.md R50, 60_exceptions.md R201). -/
def Obligations.UnreachableStates : Prop :=
  ∀ s : State, Reachable s →
    playback s ≠ .unreachable ∧ (playback s = .drained → s.cfg.overrunPolicy = .autostop) ∧ s.faults.length ≤ 1 ∧
    (s.cfg.overrunPolicy = .wrap → ∀ r ∈ s.faults, r.code = .overrun → s.bufLen = some 0) ∧
    ∀ r ∈ s.faults, r.code.number ≠ 3 ∧ r.code.number ≠ 6 ∧ r.code.number ≠ 7

/-- In an infinite run, which no fault ends, under weak fairness to the tick sequencer alone: an interrupt that can be taken
stays so until ISR_ENTRY takes it or the host issues STOP, and one of these happens (70_reset_and_hazards.md R245,
41_sample_clock.md R104). Nothing is assumed of the host or of the counters. -/
def Obligations.FairRunsTakeInterrupt : Prop :=
  ∀ (r : Run) (n : Nat), r.FairTo .ts →
    (r.state n).phase = .idle → (r.state n).gie = true → (r.state n).scOvfie = true → (r.state n).scOvf = true →
    ∃ m, n ≤ m ∧
      (∀ k, n ≤ k → k ≤ m → (r.state k).phase = .idle ∧ (r.state k).gie = true ∧ (r.state k).scOvfie = true ∧
        (r.state k).scOvf = true) ∧
      ((r.move m).issuer = .block ∧ decodeHere (r.state m) (r.move m).word = .ok .isrEntry ∧
          (r.state (m + 1)).phase = .a ∨
        (r.move m).issuer = .host ∧ decodeHere (r.state m) (r.move m).word = .ok .stop)

/-- The pseudo-instructions and the syntax of a listing (30_encoding.md R88, R89). -/
def Obligations.AssemblerExpansions : Prop :=
  ∀ c : Config,
    assembleLine c "TICK" =
      some [.isrEntry, .diagToggle, .loadSample, .writeCmp, .incCursor, .clearOvf, .reti] ∧
    assembleLine c "TICK_AUTOSTOP ; an overrun" = some [.isrEntry, .diagToggle, .loadSample, .clearOvf, .reti] ∧
    assembleLine c "SC_PERIOD" = some (List.replicate (c.scPerVal + 1) .scClk) ∧
    assembleLine c "PW_PERIOD" = some (List.replicate 256 .pwmClk) ∧
    assembleLine c "StartPlayback(0x0100, 3)" = some [.start 0x0100 3] ∧
    assembleLine c "StopPlayback()" = some [.stop] ∧
    assembleLine c "START 0x0100, 3" = some [.start 0x0100 3] ∧
    assembleLine c "START 256, 3" = some [.start 0x0100 3] ∧
    assembleLine c "STOP" = some [.stop] ∧
    assembleLine c "SC_CLK * 4" = some [.scClk, .scClk, .scClk, .scClk] ∧
    assembleLine c "sc_clk" = none
end

