-- ==== Sys2Proof/Laws/Decode.lean ====
section
/-! SUPPORT. The fields of a word put together from its parts, and what the decoder's parts answer. -/

namespace Sys2Proof

theorem opc_append (o : BitVec 8) (l : BitVec 24) (b : BitVec 32) : Word.opc (o ++ (l ++ b)) = o := by
  ext i hi
  simp only [Word.opc, BitVec.getElem_extractLsb']
  rw [show (o ++ (l ++ b) : BitVec 64).getLsbD (56 + i) = (o ++ (l ++ b) : BitVec (8 + (24 + 32))).getLsbD (56 + i)
    from rfl, BitVec.getLsbD_append]
  simp [BitVec.getLsbD_eq_getElem hi]

theorem len_append (o : BitVec 8) (l : BitVec 24) (b : BitVec 32) : Word.len (o ++ (l ++ b)) = l := by
  ext i hi
  simp only [Word.len, BitVec.getElem_extractLsb']
  rw [show (o ++ (l ++ b) : BitVec 64).getLsbD (32 + i) = (o ++ (l ++ b) : BitVec (8 + (24 + 32))).getLsbD (32 + i)
    from rfl, BitVec.getLsbD_append, BitVec.getLsbD_append]
  simp [hi, BitVec.getLsbD_eq_getElem]
  omega

theorem base_append (o : BitVec 8) (l : BitVec 24) (b : BitVec 32) : Word.base (o ++ (l ++ b)) = b := by
  ext i hi
  simp only [Word.base, BitVec.getElem_extractLsb']
  rw [show (o ++ (l ++ b) : BitVec 64).getLsbD (0 + i) = (o ++ (l ++ b) : BitVec (8 + (24 + 32))).getLsbD (0 + i)
    from rfl, BitVec.getLsbD_append, BitVec.getLsbD_append]
  simp [hi, BitVec.getLsbD_eq_getElem]
  omega

/-- A word is its three fields. -/
theorem fields_append (w : Word) : (Word.opc w ++ (Word.len w ++ Word.base w) : Word) = w := by
  apply BitVec.eq_of_getLsbD_eq
  intro i hi
  rw [show (Word.opc w ++ (Word.len w ++ Word.base w) : BitVec 64).getLsbD i =
      (Word.opc w ++ (Word.len w ++ Word.base w) : BitVec (8 + (24 + 32))).getLsbD i from rfl,
    BitVec.getLsbD_append, BitVec.getLsbD_append]
  simp only [Word.opc, Word.len, Word.base, BitVec.getLsbD_extractLsb']
  split_ifs <;> simp <;> grind

/-- `w[55:0]` is zero exactly when LEN and BASE are. -/
theorem operandBits_eq_zero (w : Word) : Word.operandBits w = 0 ↔ Word.len w = 0 ∧ Word.base w = 0 := by
  constructor
  · intro h
    have hbit : ∀ i, i < 56 → w.getLsbD i = false := fun i hi => by
      have := congrArg (fun v : BitVec 56 => v.getLsbD i) h
      simpa [Word.operandBits, BitVec.getLsbD_extractLsb', hi] using this
    constructor <;> apply BitVec.eq_of_getLsbD_eq <;> intro i hi
    · simp [Word.len, BitVec.getLsbD_extractLsb', hbit (32 + i) (by omega)]
    · simp [Word.base, BitVec.getLsbD_extractLsb', hbit i (by omega)]
  · rintro ⟨hl, hb⟩
    apply BitVec.eq_of_getLsbD_eq
    intro i hi
    simp only [Word.operandBits, BitVec.getLsbD_extractLsb']
    by_cases h : i < 32
    · have := congrArg (fun v : BitVec 32 => v.getLsbD i) hb
      simpa [Word.base, BitVec.getLsbD_extractLsb', h, hi] using this
    · have := congrArg (fun v : BitVec 24 => v.getLsbD (i - 32)) hl
      have hi' : i - 32 < 24 := by omega
      have hs : 32 + (i - 32) = i := by omega
      simpa [Word.len, BitVec.getLsbD_extractLsb', hi, hi', hs] using this

/-- What an operation code without operands names has that code and no operands, and its code is not START's. -/
theorem labelOf_some {c : BitVec 8} {i : Instr} (h : labelOf c = some i) :
    i.opcode = c ∧ i.operands = (0, 0) ∧ c ≠ 0x01#8 := by
  unfold labelOf at h
  split at h <;> first | contradiction | skip
  all_goals
    rename_i hc
    have hc' : c = BitVec.ofNat 8 c.toNat := by simp
    rw [hc] at hc'
    subst hc'
    cases h
    decide

/-- The code of an operation without operands names it. -/
theorem labelOf_opcode (i : Instr) (h : i.opcode ≠ 0x01#8) : labelOf i.opcode = some i := by
  cases i <;> first | rfl | exact absurd rfl h

/-- What the decoder answers for START's code. -/
theorem decode_start {addrW lenW : Nat} {w : Word} (h : Word.opc w = 0x01#8) :
    decode addrW lenW w = decodeStart addrW lenW w := by
  simp [decode, h]

/-- What the decoder answers for every other code. -/
theorem decode_label {addrW lenW : Nat} {w : Word} (h : Word.opc w ≠ 0x01#8) :
    decode addrW lenW w = decodeLabel w := by
  simp [decode, h]

end Sys2Proof
end

