-- ==== Sys2Proof/Laws/Memory.lean ====
section
/-! SUPPORT. Sample memory: every memory operation keeps the canonical form, and a read after a write. -/

namespace Sys2Proof.Machine

theorem Memory.wfFrom_mono {lo hi : Nat} {m : Memory} (h : Memory.wfFrom hi m = true) (hle : lo ≤ hi) :
    Memory.wfFrom lo m = true := by
  cases m with
  | nil => rfl
  | cons cell rest =>
    simp only [Memory.wfFrom, Bool.and_eq_true, decide_eq_true_eq] at h ⊢
    exact ⟨⟨hle.trans h.1.1, h.1.2⟩, h.2⟩

theorem Memory.set_wfFrom {lo : Nat} {m : Memory} {addr : Nat} (v : Byte)
    (h : Memory.wfFrom lo m = true) (hlo : lo ≤ addr) : Memory.wfFrom lo (Memory.set m addr v) = true := by
  induction m generalizing lo with
  | nil => by_cases hv : v = Memory.unlisted <;> simp [Memory.set, Memory.wfFrom, hv, hlo]
  | cons cell rest ih =>
    obtain ⟨a, w⟩ := cell
    simp only [Memory.wfFrom, Bool.and_eq_true, decide_eq_true_eq] at h
    obtain ⟨⟨hla, hw⟩, hrest⟩ := h
    rcases lt_trichotomy addr a with hlt | heq | hgt
    · by_cases hv : v = Memory.unlisted <;>
        simp [Memory.set, Memory.wfFrom, hlt, hv, hla, hw, hrest, hlo]
    · subst heq
      by_cases hv : v = Memory.unlisted
      · simpa [Memory.set, hv] using Memory.wfFrom_mono hrest (by omega)
      · simp [Memory.set, Memory.wfFrom, hv, hlo, hrest]
    · simp only [Memory.set, Nat.not_lt.mpr hgt.le, if_false, if_neg hgt.ne']
      simp [Memory.wfFrom, hla, hw, ih hrest (by omega)]

/-- A write keeps the canonical form. -/
theorem Memory.set_wf {m : Memory} (addr : Nat) (v : Byte) (h : Memory.wf m = true) :
    Memory.wf (Memory.set m addr v) = true :=
  Memory.set_wfFrom v h (Nat.zero_le addr)

/-- Laying a buffer keeps the canonical form. -/
theorem Memory.setBytes_wf {m : Memory} (addr : Nat) (vs : List Byte) (h : Memory.wf m = true) :
    Memory.wf (Memory.setBytes m addr vs) = true := by
  induction vs generalizing m addr with
  | nil => exact h
  | cons v vs ih => exact ih _ (Memory.set_wf addr v h)

theorem Memory.read_below {lo : Nat} {m : Memory} {addr : Nat} (h : Memory.wfFrom lo m = true) (hlt : addr < lo) :
    Memory.read m addr = Memory.unlisted := by
  induction m generalizing lo with
  | nil => rfl
  | cons cell rest ih =>
    obtain ⟨a, w⟩ := cell
    simp only [Memory.wfFrom, Bool.and_eq_true, decide_eq_true_eq] at h
    simp only [Memory.read, if_neg (show addr ≠ a by omega)]
    exact ih h.2 (by omega)

theorem Memory.read_set_wfFrom {lo : Nat} {m : Memory} (addr other : Nat) (v : Byte)
    (h : Memory.wfFrom lo m = true) :
    Memory.read (Memory.set m addr v) other = if other = addr then v else Memory.read m other := by
  induction m generalizing lo with
  | nil => by_cases hv : v = Memory.unlisted <;> by_cases ho : other = addr <;> simp [Memory.set, Memory.read, hv, ho]
  | cons cell rest ih =>
    obtain ⟨a, w⟩ := cell
    simp only [Memory.wfFrom, Bool.and_eq_true, decide_eq_true_eq] at h
    obtain ⟨⟨_, _⟩, hrest⟩ := h
    rcases lt_trichotomy addr a with hlt | heq | hgt
    · have hab : Memory.read rest addr = Memory.unlisted := Memory.read_below hrest (by omega)
      by_cases hv : v = Memory.unlisted <;> by_cases ho : other = addr <;>
        simp [Memory.set, Memory.read, hlt, hv, ho, hab, show addr ≠ a by omega]
    · subst heq
      have hab : Memory.read rest addr = Memory.unlisted := Memory.read_below hrest (by omega)
      by_cases hv : v = Memory.unlisted <;> by_cases ho : other = addr <;> simp [Memory.set, Memory.read, hv, ho, hab]
    · simp only [Memory.set, Nat.not_lt.mpr hgt.le, if_false, if_neg hgt.ne', Memory.read, ih hrest]
      by_cases hoa : other = a <;> by_cases ho : other = addr <;> simp [hoa, ho] <;> omega

/-- A read after a write: the byte written there, every other byte as before. -/
theorem Memory.read_set {m : Memory} (addr other : Nat) (v : Byte) (h : Memory.wf m = true) :
    Memory.read (Memory.set m addr v) other = if other = addr then v else Memory.read m other :=
  Memory.read_set_wfFrom addr other v h

theorem Memory.set_within {size : Nat} {m : Memory} {addr : Nat} (v : Byte)
    (h : Memory.within size m = true) (hlt : addr < size) : Memory.within size (Memory.set m addr v) = true := by
  induction m with
  | nil => by_cases hv : v = Memory.unlisted <;> simp [Memory.set, Memory.within, hv, hlt]
  | cons cell rest ih =>
    obtain ⟨a, w⟩ := cell
    simp only [Memory.within, List.all_cons, Bool.and_eq_true, decide_eq_true_eq] at h ih
    unfold Memory.set
    split_ifs <;> simp [Memory.within, h, hlt, ih h.2]

/-- What a read of sample memory answers (20_memory.md R62). -/
theorem memRead_eq (s : State) (addr : Nat) :
    memRead s addr =
      if addr < s.cfg.memSize then .ok (Memory.read s.mem addr) else .error ⟨.memRange, some addr⟩ := by
  by_cases h : addr < s.cfg.memSize
  · simp [memRead, h, Nat.not_le.mpr h]
  · simp [memRead, h, Nat.not_lt.mp h]

/-- Sample memory right after reset is in canonical form. -/
theorem Memory.reset_wf : Memory.wf State.reset.mem = true := rfl

end Sys2Proof.Machine
end

