-- ==== Sys2Proof/Laws/State.lean ====
section
/-! SUPPORT. One lemma per field per state update: what each named update leaves in each field. -/

namespace Sys2Proof.Machine

@[simp] theorem recordFault_cfg (r : FaultRecord) (s : State) : (recordFault r s).cfg = s.cfg := rfl
@[simp] theorem recordFault_mem (r : FaultRecord) (s : State) : (recordFault r s).mem = s.mem := rfl
@[simp] theorem recordFault_bufBase (r : FaultRecord) (s : State) : (recordFault r s).bufBase = s.bufBase := rfl
@[simp] theorem recordFault_bufLen (r : FaultRecord) (s : State) : (recordFault r s).bufLen = s.bufLen := rfl
@[simp] theorem recordFault_cursor (r : FaultRecord) (s : State) : (recordFault r s).cursor = s.cursor := rfl
@[simp] theorem recordFault_sampleTmp (r : FaultRecord) (s : State) : (recordFault r s).sampleTmp = s.sampleTmp := rfl
@[simp] theorem recordFault_phase (r : FaultRecord) (s : State) : (recordFault r s).phase = s.phase := rfl
@[simp] theorem recordFault_scOvf (r : FaultRecord) (s : State) : (recordFault r s).scOvf = s.scOvf := rfl
@[simp] theorem recordFault_gie (r : FaultRecord) (s : State) : (recordFault r s).gie = s.gie := rfl
@[simp] theorem recordFault_scEn (r : FaultRecord) (s : State) : (recordFault r s).scEn = s.scEn := rfl
@[simp] theorem recordFault_scOvfie (r : FaultRecord) (s : State) : (recordFault r s).scOvfie = s.scOvfie := rfl
@[simp] theorem recordFault_scMode (r : FaultRecord) (s : State) : (recordFault r s).scMode = s.scMode := rfl
@[simp] theorem recordFault_scDiv (r : FaultRecord) (s : State) : (recordFault r s).scDiv = s.scDiv := rfl
@[simp] theorem recordFault_scPer (r : FaultRecord) (s : State) : (recordFault r s).scPer = s.scPer := rfl
@[simp] theorem recordFault_scCnt (r : FaultRecord) (s : State) : (recordFault r s).scCnt = s.scCnt := rfl
@[simp] theorem recordFault_pwEn (r : FaultRecord) (s : State) : (recordFault r s).pwEn = s.pwEn := rfl
@[simp] theorem recordFault_pwMode (r : FaultRecord) (s : State) : (recordFault r s).pwMode = s.pwMode := rfl
@[simp] theorem recordFault_pwAsync (r : FaultRecord) (s : State) : (recordFault r s).pwAsync = s.pwAsync := rfl
@[simp] theorem recordFault_pwOuten (r : FaultRecord) (s : State) : (recordFault r s).pwOuten = s.pwOuten := rfl
@[simp] theorem recordFault_pwDiv (r : FaultRecord) (s : State) : (recordFault r s).pwDiv = s.pwDiv := rfl
@[simp] theorem recordFault_pwPer (r : FaultRecord) (s : State) : (recordFault r s).pwPer = s.pwPer := rfl
@[simp] theorem recordFault_pwCmp (r : FaultRecord) (s : State) : (recordFault r s).pwCmp = s.pwCmp := rfl
@[simp] theorem recordFault_pwCmpAct (r : FaultRecord) (s : State) : (recordFault r s).pwCmpAct = s.pwCmpAct := rfl
@[simp] theorem recordFault_pwCnt (r : FaultRecord) (s : State) : (recordFault r s).pwCnt = s.pwCnt := rfl
@[simp] theorem recordFault_outDir (r : FaultRecord) (s : State) : (recordFault r s).outDir = s.outDir := rfl
@[simp] theorem recordFault_outLvl (r : FaultRecord) (s : State) : (recordFault r s).outLvl = s.outLvl := rfl
@[simp] theorem recordFault_route (r : FaultRecord) (s : State) : (recordFault r s).route = s.route := rfl
@[simp] theorem recordFault_diagLvl (r : FaultRecord) (s : State) : (recordFault r s).diagLvl = s.diagLvl := rfl
@[simp] theorem recordFault_clkSel (r : FaultRecord) (s : State) : (recordFault r s).clkSel = s.clkSel := rfl
@[simp] theorem recordFault_faults (r : FaultRecord) (s : State) : (recordFault r s).faults =
    (if r ∈ s.faults then s.faults else s.faults ++ [r]) := rfl
@[simp] theorem recordFault_history (r : FaultRecord) (s : State) : (recordFault r s).history = s.history := rfl
@[simp] theorem recordFault_schedule (r : FaultRecord) (s : State) : (recordFault r s).schedule = s.schedule := rfl
@[simp] theorem recordFault_draws (r : FaultRecord) (s : State) : (recordFault r s).draws = s.draws := rfl

@[simp] theorem emit_cfg (ev : Event) (s : State) : (emit ev s).cfg = s.cfg := rfl
@[simp] theorem emit_mem (ev : Event) (s : State) : (emit ev s).mem = s.mem := rfl
@[simp] theorem emit_bufBase (ev : Event) (s : State) : (emit ev s).bufBase = s.bufBase := rfl
@[simp] theorem emit_bufLen (ev : Event) (s : State) : (emit ev s).bufLen = s.bufLen := rfl
@[simp] theorem emit_cursor (ev : Event) (s : State) : (emit ev s).cursor = s.cursor := rfl
@[simp] theorem emit_sampleTmp (ev : Event) (s : State) : (emit ev s).sampleTmp = s.sampleTmp := rfl
@[simp] theorem emit_phase (ev : Event) (s : State) : (emit ev s).phase = s.phase := rfl
@[simp] theorem emit_scOvf (ev : Event) (s : State) : (emit ev s).scOvf = s.scOvf := rfl
@[simp] theorem emit_gie (ev : Event) (s : State) : (emit ev s).gie = s.gie := rfl
@[simp] theorem emit_scEn (ev : Event) (s : State) : (emit ev s).scEn = s.scEn := rfl
@[simp] theorem emit_scOvfie (ev : Event) (s : State) : (emit ev s).scOvfie = s.scOvfie := rfl
@[simp] theorem emit_scMode (ev : Event) (s : State) : (emit ev s).scMode = s.scMode := rfl
@[simp] theorem emit_scDiv (ev : Event) (s : State) : (emit ev s).scDiv = s.scDiv := rfl
@[simp] theorem emit_scPer (ev : Event) (s : State) : (emit ev s).scPer = s.scPer := rfl
@[simp] theorem emit_scCnt (ev : Event) (s : State) : (emit ev s).scCnt = s.scCnt := rfl
@[simp] theorem emit_pwEn (ev : Event) (s : State) : (emit ev s).pwEn = s.pwEn := rfl
@[simp] theorem emit_pwMode (ev : Event) (s : State) : (emit ev s).pwMode = s.pwMode := rfl
@[simp] theorem emit_pwAsync (ev : Event) (s : State) : (emit ev s).pwAsync = s.pwAsync := rfl
@[simp] theorem emit_pwOuten (ev : Event) (s : State) : (emit ev s).pwOuten = s.pwOuten := rfl
@[simp] theorem emit_pwDiv (ev : Event) (s : State) : (emit ev s).pwDiv = s.pwDiv := rfl
@[simp] theorem emit_pwPer (ev : Event) (s : State) : (emit ev s).pwPer = s.pwPer := rfl
@[simp] theorem emit_pwCmp (ev : Event) (s : State) : (emit ev s).pwCmp = s.pwCmp := rfl
@[simp] theorem emit_pwCmpAct (ev : Event) (s : State) : (emit ev s).pwCmpAct = s.pwCmpAct := rfl
@[simp] theorem emit_pwCnt (ev : Event) (s : State) : (emit ev s).pwCnt = s.pwCnt := rfl
@[simp] theorem emit_outDir (ev : Event) (s : State) : (emit ev s).outDir = s.outDir := rfl
@[simp] theorem emit_outLvl (ev : Event) (s : State) : (emit ev s).outLvl = s.outLvl := rfl
@[simp] theorem emit_route (ev : Event) (s : State) : (emit ev s).route = s.route := rfl
@[simp] theorem emit_diagLvl (ev : Event) (s : State) : (emit ev s).diagLvl = s.diagLvl := rfl
@[simp] theorem emit_clkSel (ev : Event) (s : State) : (emit ev s).clkSel = s.clkSel := rfl
@[simp] theorem emit_faults (ev : Event) (s : State) : (emit ev s).faults = s.faults := rfl
@[simp] theorem emit_history (ev : Event) (s : State) : (emit ev s).history = (s.history ++ [ev]) := rfl
@[simp] theorem emit_schedule (ev : Event) (s : State) : (emit ev s).schedule = s.schedule := rfl
@[simp] theorem emit_draws (ev : Event) (s : State) : (emit ev s).draws = s.draws := rfl

@[simp] theorem advanceDraws_cfg (s : State) : (advanceDraws s).cfg = s.cfg := rfl
@[simp] theorem advanceDraws_mem (s : State) : (advanceDraws s).mem = s.mem := rfl
@[simp] theorem advanceDraws_bufBase (s : State) : (advanceDraws s).bufBase = s.bufBase := rfl
@[simp] theorem advanceDraws_bufLen (s : State) : (advanceDraws s).bufLen = s.bufLen := rfl
@[simp] theorem advanceDraws_cursor (s : State) : (advanceDraws s).cursor = s.cursor := rfl
@[simp] theorem advanceDraws_sampleTmp (s : State) : (advanceDraws s).sampleTmp = s.sampleTmp := rfl
@[simp] theorem advanceDraws_phase (s : State) : (advanceDraws s).phase = s.phase := rfl
@[simp] theorem advanceDraws_scOvf (s : State) : (advanceDraws s).scOvf = s.scOvf := rfl
@[simp] theorem advanceDraws_gie (s : State) : (advanceDraws s).gie = s.gie := rfl
@[simp] theorem advanceDraws_scEn (s : State) : (advanceDraws s).scEn = s.scEn := rfl
@[simp] theorem advanceDraws_scOvfie (s : State) : (advanceDraws s).scOvfie = s.scOvfie := rfl
@[simp] theorem advanceDraws_scMode (s : State) : (advanceDraws s).scMode = s.scMode := rfl
@[simp] theorem advanceDraws_scDiv (s : State) : (advanceDraws s).scDiv = s.scDiv := rfl
@[simp] theorem advanceDraws_scPer (s : State) : (advanceDraws s).scPer = s.scPer := rfl
@[simp] theorem advanceDraws_scCnt (s : State) : (advanceDraws s).scCnt = s.scCnt := rfl
@[simp] theorem advanceDraws_pwEn (s : State) : (advanceDraws s).pwEn = s.pwEn := rfl
@[simp] theorem advanceDraws_pwMode (s : State) : (advanceDraws s).pwMode = s.pwMode := rfl
@[simp] theorem advanceDraws_pwAsync (s : State) : (advanceDraws s).pwAsync = s.pwAsync := rfl
@[simp] theorem advanceDraws_pwOuten (s : State) : (advanceDraws s).pwOuten = s.pwOuten := rfl
@[simp] theorem advanceDraws_pwDiv (s : State) : (advanceDraws s).pwDiv = s.pwDiv := rfl
@[simp] theorem advanceDraws_pwPer (s : State) : (advanceDraws s).pwPer = s.pwPer := rfl
@[simp] theorem advanceDraws_pwCmp (s : State) : (advanceDraws s).pwCmp = s.pwCmp := rfl
@[simp] theorem advanceDraws_pwCmpAct (s : State) : (advanceDraws s).pwCmpAct = s.pwCmpAct := rfl
@[simp] theorem advanceDraws_pwCnt (s : State) : (advanceDraws s).pwCnt = s.pwCnt := rfl
@[simp] theorem advanceDraws_outDir (s : State) : (advanceDraws s).outDir = s.outDir := rfl
@[simp] theorem advanceDraws_outLvl (s : State) : (advanceDraws s).outLvl = s.outLvl := rfl
@[simp] theorem advanceDraws_route (s : State) : (advanceDraws s).route = s.route := rfl
@[simp] theorem advanceDraws_diagLvl (s : State) : (advanceDraws s).diagLvl = s.diagLvl := rfl
@[simp] theorem advanceDraws_clkSel (s : State) : (advanceDraws s).clkSel = s.clkSel := rfl
@[simp] theorem advanceDraws_faults (s : State) : (advanceDraws s).faults = s.faults := rfl
@[simp] theorem advanceDraws_history (s : State) : (advanceDraws s).history = s.history := rfl
@[simp] theorem advanceDraws_schedule (s : State) : (advanceDraws s).schedule = s.schedule := rfl
@[simp] theorem advanceDraws_draws (s : State) : (advanceDraws s).draws = (s.draws + 1) := rfl

@[simp] theorem popTurn_cfg (s : State) : (popTurn s).cfg = s.cfg := rfl
@[simp] theorem popTurn_mem (s : State) : (popTurn s).mem = s.mem := rfl
@[simp] theorem popTurn_bufBase (s : State) : (popTurn s).bufBase = s.bufBase := rfl
@[simp] theorem popTurn_bufLen (s : State) : (popTurn s).bufLen = s.bufLen := rfl
@[simp] theorem popTurn_cursor (s : State) : (popTurn s).cursor = s.cursor := rfl
@[simp] theorem popTurn_sampleTmp (s : State) : (popTurn s).sampleTmp = s.sampleTmp := rfl
@[simp] theorem popTurn_phase (s : State) : (popTurn s).phase = s.phase := rfl
@[simp] theorem popTurn_scOvf (s : State) : (popTurn s).scOvf = s.scOvf := rfl
@[simp] theorem popTurn_gie (s : State) : (popTurn s).gie = s.gie := rfl
@[simp] theorem popTurn_scEn (s : State) : (popTurn s).scEn = s.scEn := rfl
@[simp] theorem popTurn_scOvfie (s : State) : (popTurn s).scOvfie = s.scOvfie := rfl
@[simp] theorem popTurn_scMode (s : State) : (popTurn s).scMode = s.scMode := rfl
@[simp] theorem popTurn_scDiv (s : State) : (popTurn s).scDiv = s.scDiv := rfl
@[simp] theorem popTurn_scPer (s : State) : (popTurn s).scPer = s.scPer := rfl
@[simp] theorem popTurn_scCnt (s : State) : (popTurn s).scCnt = s.scCnt := rfl
@[simp] theorem popTurn_pwEn (s : State) : (popTurn s).pwEn = s.pwEn := rfl
@[simp] theorem popTurn_pwMode (s : State) : (popTurn s).pwMode = s.pwMode := rfl
@[simp] theorem popTurn_pwAsync (s : State) : (popTurn s).pwAsync = s.pwAsync := rfl
@[simp] theorem popTurn_pwOuten (s : State) : (popTurn s).pwOuten = s.pwOuten := rfl
@[simp] theorem popTurn_pwDiv (s : State) : (popTurn s).pwDiv = s.pwDiv := rfl
@[simp] theorem popTurn_pwPer (s : State) : (popTurn s).pwPer = s.pwPer := rfl
@[simp] theorem popTurn_pwCmp (s : State) : (popTurn s).pwCmp = s.pwCmp := rfl
@[simp] theorem popTurn_pwCmpAct (s : State) : (popTurn s).pwCmpAct = s.pwCmpAct := rfl
@[simp] theorem popTurn_pwCnt (s : State) : (popTurn s).pwCnt = s.pwCnt := rfl
@[simp] theorem popTurn_outDir (s : State) : (popTurn s).outDir = s.outDir := rfl
@[simp] theorem popTurn_outLvl (s : State) : (popTurn s).outLvl = s.outLvl := rfl
@[simp] theorem popTurn_route (s : State) : (popTurn s).route = s.route := rfl
@[simp] theorem popTurn_diagLvl (s : State) : (popTurn s).diagLvl = s.diagLvl := rfl
@[simp] theorem popTurn_clkSel (s : State) : (popTurn s).clkSel = s.clkSel := rfl
@[simp] theorem popTurn_faults (s : State) : (popTurn s).faults = s.faults := rfl
@[simp] theorem popTurn_history (s : State) : (popTurn s).history = s.history := rfl
@[simp] theorem popTurn_schedule (s : State) : (popTurn s).schedule = s.schedule.tail := rfl
@[simp] theorem popTurn_draws (s : State) : (popTurn s).draws = s.draws := rfl

@[simp] theorem enterInterrupt_cfg (s : State) : (enterInterrupt s).cfg = s.cfg := rfl
@[simp] theorem enterInterrupt_mem (s : State) : (enterInterrupt s).mem = s.mem := rfl
@[simp] theorem enterInterrupt_bufBase (s : State) : (enterInterrupt s).bufBase = s.bufBase := rfl
@[simp] theorem enterInterrupt_bufLen (s : State) : (enterInterrupt s).bufLen = s.bufLen := rfl
@[simp] theorem enterInterrupt_cursor (s : State) : (enterInterrupt s).cursor = s.cursor := rfl
@[simp] theorem enterInterrupt_sampleTmp (s : State) : (enterInterrupt s).sampleTmp = s.sampleTmp := rfl
@[simp] theorem enterInterrupt_phase (s : State) : (enterInterrupt s).phase = .a := rfl
@[simp] theorem enterInterrupt_scOvf (s : State) : (enterInterrupt s).scOvf = s.scOvf := rfl
@[simp] theorem enterInterrupt_gie (s : State) : (enterInterrupt s).gie = false := rfl
@[simp] theorem enterInterrupt_scEn (s : State) : (enterInterrupt s).scEn = s.scEn := rfl
@[simp] theorem enterInterrupt_scOvfie (s : State) : (enterInterrupt s).scOvfie = s.scOvfie := rfl
@[simp] theorem enterInterrupt_scMode (s : State) : (enterInterrupt s).scMode = s.scMode := rfl
@[simp] theorem enterInterrupt_scDiv (s : State) : (enterInterrupt s).scDiv = s.scDiv := rfl
@[simp] theorem enterInterrupt_scPer (s : State) : (enterInterrupt s).scPer = s.scPer := rfl
@[simp] theorem enterInterrupt_scCnt (s : State) : (enterInterrupt s).scCnt = s.scCnt := rfl
@[simp] theorem enterInterrupt_pwEn (s : State) : (enterInterrupt s).pwEn = s.pwEn := rfl
@[simp] theorem enterInterrupt_pwMode (s : State) : (enterInterrupt s).pwMode = s.pwMode := rfl
@[simp] theorem enterInterrupt_pwAsync (s : State) : (enterInterrupt s).pwAsync = s.pwAsync := rfl
@[simp] theorem enterInterrupt_pwOuten (s : State) : (enterInterrupt s).pwOuten = s.pwOuten := rfl
@[simp] theorem enterInterrupt_pwDiv (s : State) : (enterInterrupt s).pwDiv = s.pwDiv := rfl
@[simp] theorem enterInterrupt_pwPer (s : State) : (enterInterrupt s).pwPer = s.pwPer := rfl
@[simp] theorem enterInterrupt_pwCmp (s : State) : (enterInterrupt s).pwCmp = s.pwCmp := rfl
@[simp] theorem enterInterrupt_pwCmpAct (s : State) : (enterInterrupt s).pwCmpAct = s.pwCmpAct := rfl
@[simp] theorem enterInterrupt_pwCnt (s : State) : (enterInterrupt s).pwCnt = s.pwCnt := rfl
@[simp] theorem enterInterrupt_outDir (s : State) : (enterInterrupt s).outDir = s.outDir := rfl
@[simp] theorem enterInterrupt_outLvl (s : State) : (enterInterrupt s).outLvl = s.outLvl := rfl
@[simp] theorem enterInterrupt_route (s : State) : (enterInterrupt s).route = s.route := rfl
@[simp] theorem enterInterrupt_diagLvl (s : State) : (enterInterrupt s).diagLvl = s.diagLvl := rfl
@[simp] theorem enterInterrupt_clkSel (s : State) : (enterInterrupt s).clkSel = s.clkSel := rfl
@[simp] theorem enterInterrupt_faults (s : State) : (enterInterrupt s).faults = s.faults := rfl
@[simp] theorem enterInterrupt_history (s : State) : (enterInterrupt s).history = s.history := rfl
@[simp] theorem enterInterrupt_schedule (s : State) : (enterInterrupt s).schedule = s.schedule := rfl
@[simp] theorem enterInterrupt_draws (s : State) : (enterInterrupt s).draws = s.draws := rfl

@[simp] theorem returnFromInterrupt_cfg (s : State) : (returnFromInterrupt s).cfg = s.cfg := rfl
@[simp] theorem returnFromInterrupt_mem (s : State) : (returnFromInterrupt s).mem = s.mem := rfl
@[simp] theorem returnFromInterrupt_bufBase (s : State) : (returnFromInterrupt s).bufBase = s.bufBase := rfl
@[simp] theorem returnFromInterrupt_bufLen (s : State) : (returnFromInterrupt s).bufLen = s.bufLen := rfl
@[simp] theorem returnFromInterrupt_cursor (s : State) : (returnFromInterrupt s).cursor = s.cursor := rfl
@[simp] theorem returnFromInterrupt_sampleTmp (s : State) : (returnFromInterrupt s).sampleTmp = none := rfl
@[simp] theorem returnFromInterrupt_phase (s : State) : (returnFromInterrupt s).phase = .idle := rfl
@[simp] theorem returnFromInterrupt_scOvf (s : State) : (returnFromInterrupt s).scOvf = s.scOvf := rfl
@[simp] theorem returnFromInterrupt_gie (s : State) : (returnFromInterrupt s).gie = true := rfl
@[simp] theorem returnFromInterrupt_scEn (s : State) : (returnFromInterrupt s).scEn = s.scEn := rfl
@[simp] theorem returnFromInterrupt_scOvfie (s : State) : (returnFromInterrupt s).scOvfie = s.scOvfie := rfl
@[simp] theorem returnFromInterrupt_scMode (s : State) : (returnFromInterrupt s).scMode = s.scMode := rfl
@[simp] theorem returnFromInterrupt_scDiv (s : State) : (returnFromInterrupt s).scDiv = s.scDiv := rfl
@[simp] theorem returnFromInterrupt_scPer (s : State) : (returnFromInterrupt s).scPer = s.scPer := rfl
@[simp] theorem returnFromInterrupt_scCnt (s : State) : (returnFromInterrupt s).scCnt = s.scCnt := rfl
@[simp] theorem returnFromInterrupt_pwEn (s : State) : (returnFromInterrupt s).pwEn = s.pwEn := rfl
@[simp] theorem returnFromInterrupt_pwMode (s : State) : (returnFromInterrupt s).pwMode = s.pwMode := rfl
@[simp] theorem returnFromInterrupt_pwAsync (s : State) : (returnFromInterrupt s).pwAsync = s.pwAsync := rfl
@[simp] theorem returnFromInterrupt_pwOuten (s : State) : (returnFromInterrupt s).pwOuten = s.pwOuten := rfl
@[simp] theorem returnFromInterrupt_pwDiv (s : State) : (returnFromInterrupt s).pwDiv = s.pwDiv := rfl
@[simp] theorem returnFromInterrupt_pwPer (s : State) : (returnFromInterrupt s).pwPer = s.pwPer := rfl
@[simp] theorem returnFromInterrupt_pwCmp (s : State) : (returnFromInterrupt s).pwCmp = s.pwCmp := rfl
@[simp] theorem returnFromInterrupt_pwCmpAct (s : State) : (returnFromInterrupt s).pwCmpAct = s.pwCmpAct := rfl
@[simp] theorem returnFromInterrupt_pwCnt (s : State) : (returnFromInterrupt s).pwCnt = s.pwCnt := rfl
@[simp] theorem returnFromInterrupt_outDir (s : State) : (returnFromInterrupt s).outDir = s.outDir := rfl
@[simp] theorem returnFromInterrupt_outLvl (s : State) : (returnFromInterrupt s).outLvl = s.outLvl := rfl
@[simp] theorem returnFromInterrupt_route (s : State) : (returnFromInterrupt s).route = s.route := rfl
@[simp] theorem returnFromInterrupt_diagLvl (s : State) : (returnFromInterrupt s).diagLvl = s.diagLvl := rfl
@[simp] theorem returnFromInterrupt_clkSel (s : State) : (returnFromInterrupt s).clkSel = s.clkSel := rfl
@[simp] theorem returnFromInterrupt_faults (s : State) : (returnFromInterrupt s).faults = s.faults := rfl
@[simp] theorem returnFromInterrupt_history (s : State) : (returnFromInterrupt s).history = s.history := rfl
@[simp] theorem returnFromInterrupt_schedule (s : State) : (returnFromInterrupt s).schedule = s.schedule := rfl
@[simp] theorem returnFromInterrupt_draws (s : State) : (returnFromInterrupt s).draws = s.draws := rfl

@[simp] theorem holdSample_cfg (v : Byte) (s : State) : (holdSample v s).cfg = s.cfg := rfl
@[simp] theorem holdSample_mem (v : Byte) (s : State) : (holdSample v s).mem = s.mem := rfl
@[simp] theorem holdSample_bufBase (v : Byte) (s : State) : (holdSample v s).bufBase = s.bufBase := rfl
@[simp] theorem holdSample_bufLen (v : Byte) (s : State) : (holdSample v s).bufLen = s.bufLen := rfl
@[simp] theorem holdSample_cursor (v : Byte) (s : State) : (holdSample v s).cursor = s.cursor := rfl
@[simp] theorem holdSample_sampleTmp (v : Byte) (s : State) : (holdSample v s).sampleTmp = (some v) := rfl
@[simp] theorem holdSample_phase (v : Byte) (s : State) : (holdSample v s).phase = .c := rfl
@[simp] theorem holdSample_scOvf (v : Byte) (s : State) : (holdSample v s).scOvf = s.scOvf := rfl
@[simp] theorem holdSample_gie (v : Byte) (s : State) : (holdSample v s).gie = s.gie := rfl
@[simp] theorem holdSample_scEn (v : Byte) (s : State) : (holdSample v s).scEn = s.scEn := rfl
@[simp] theorem holdSample_scOvfie (v : Byte) (s : State) : (holdSample v s).scOvfie = s.scOvfie := rfl
@[simp] theorem holdSample_scMode (v : Byte) (s : State) : (holdSample v s).scMode = s.scMode := rfl
@[simp] theorem holdSample_scDiv (v : Byte) (s : State) : (holdSample v s).scDiv = s.scDiv := rfl
@[simp] theorem holdSample_scPer (v : Byte) (s : State) : (holdSample v s).scPer = s.scPer := rfl
@[simp] theorem holdSample_scCnt (v : Byte) (s : State) : (holdSample v s).scCnt = s.scCnt := rfl
@[simp] theorem holdSample_pwEn (v : Byte) (s : State) : (holdSample v s).pwEn = s.pwEn := rfl
@[simp] theorem holdSample_pwMode (v : Byte) (s : State) : (holdSample v s).pwMode = s.pwMode := rfl
@[simp] theorem holdSample_pwAsync (v : Byte) (s : State) : (holdSample v s).pwAsync = s.pwAsync := rfl
@[simp] theorem holdSample_pwOuten (v : Byte) (s : State) : (holdSample v s).pwOuten = s.pwOuten := rfl
@[simp] theorem holdSample_pwDiv (v : Byte) (s : State) : (holdSample v s).pwDiv = s.pwDiv := rfl
@[simp] theorem holdSample_pwPer (v : Byte) (s : State) : (holdSample v s).pwPer = s.pwPer := rfl
@[simp] theorem holdSample_pwCmp (v : Byte) (s : State) : (holdSample v s).pwCmp = s.pwCmp := rfl
@[simp] theorem holdSample_pwCmpAct (v : Byte) (s : State) : (holdSample v s).pwCmpAct = s.pwCmpAct := rfl
@[simp] theorem holdSample_pwCnt (v : Byte) (s : State) : (holdSample v s).pwCnt = s.pwCnt := rfl
@[simp] theorem holdSample_outDir (v : Byte) (s : State) : (holdSample v s).outDir = s.outDir := rfl
@[simp] theorem holdSample_outLvl (v : Byte) (s : State) : (holdSample v s).outLvl = s.outLvl := rfl
@[simp] theorem holdSample_route (v : Byte) (s : State) : (holdSample v s).route = s.route := rfl
@[simp] theorem holdSample_diagLvl (v : Byte) (s : State) : (holdSample v s).diagLvl = s.diagLvl := rfl
@[simp] theorem holdSample_clkSel (v : Byte) (s : State) : (holdSample v s).clkSel = s.clkSel := rfl
@[simp] theorem holdSample_faults (v : Byte) (s : State) : (holdSample v s).faults = s.faults := rfl
@[simp] theorem holdSample_history (v : Byte) (s : State) : (holdSample v s).history = s.history := rfl
@[simp] theorem holdSample_schedule (v : Byte) (s : State) : (holdSample v s).schedule = s.schedule := rfl
@[simp] theorem holdSample_draws (v : Byte) (s : State) : (holdSample v s).draws = s.draws := rfl

@[simp] theorem scConfigure_cfg (s : State) : (scConfigure s).cfg = s.cfg := rfl
@[simp] theorem scConfigure_mem (s : State) : (scConfigure s).mem = s.mem := rfl
@[simp] theorem scConfigure_bufBase (s : State) : (scConfigure s).bufBase = s.bufBase := rfl
@[simp] theorem scConfigure_bufLen (s : State) : (scConfigure s).bufLen = s.bufLen := rfl
@[simp] theorem scConfigure_cursor (s : State) : (scConfigure s).cursor = s.cursor := rfl
@[simp] theorem scConfigure_sampleTmp (s : State) : (scConfigure s).sampleTmp = s.sampleTmp := rfl
@[simp] theorem scConfigure_phase (s : State) : (scConfigure s).phase = s.phase := rfl
@[simp] theorem scConfigure_scOvf (s : State) : (scConfigure s).scOvf = s.scOvf := rfl
@[simp] theorem scConfigure_gie (s : State) : (scConfigure s).gie = s.gie := rfl
@[simp] theorem scConfigure_scEn (s : State) : (scConfigure s).scEn = true := rfl
@[simp] theorem scConfigure_scOvfie (s : State) : (scConfigure s).scOvfie = true := rfl
@[simp] theorem scConfigure_scMode (s : State) : (scConfigure s).scMode = .normal := rfl
@[simp] theorem scConfigure_scDiv (s : State) : (scConfigure s).scDiv = s.cfg.scDivVal := rfl
@[simp] theorem scConfigure_scPer (s : State) : (scConfigure s).scPer = s.cfg.scPerVal := rfl
@[simp] theorem scConfigure_scCnt (s : State) : (scConfigure s).scCnt = s.scCnt := rfl
@[simp] theorem scConfigure_pwEn (s : State) : (scConfigure s).pwEn = s.pwEn := rfl
@[simp] theorem scConfigure_pwMode (s : State) : (scConfigure s).pwMode = s.pwMode := rfl
@[simp] theorem scConfigure_pwAsync (s : State) : (scConfigure s).pwAsync = s.pwAsync := rfl
@[simp] theorem scConfigure_pwOuten (s : State) : (scConfigure s).pwOuten = s.pwOuten := rfl
@[simp] theorem scConfigure_pwDiv (s : State) : (scConfigure s).pwDiv = s.pwDiv := rfl
@[simp] theorem scConfigure_pwPer (s : State) : (scConfigure s).pwPer = s.pwPer := rfl
@[simp] theorem scConfigure_pwCmp (s : State) : (scConfigure s).pwCmp = s.pwCmp := rfl
@[simp] theorem scConfigure_pwCmpAct (s : State) : (scConfigure s).pwCmpAct = s.pwCmpAct := rfl
@[simp] theorem scConfigure_pwCnt (s : State) : (scConfigure s).pwCnt = s.pwCnt := rfl
@[simp] theorem scConfigure_outDir (s : State) : (scConfigure s).outDir = s.outDir := rfl
@[simp] theorem scConfigure_outLvl (s : State) : (scConfigure s).outLvl = s.outLvl := rfl
@[simp] theorem scConfigure_route (s : State) : (scConfigure s).route = s.route := rfl
@[simp] theorem scConfigure_diagLvl (s : State) : (scConfigure s).diagLvl = s.diagLvl := rfl
@[simp] theorem scConfigure_clkSel (s : State) : (scConfigure s).clkSel = s.clkSel := rfl
@[simp] theorem scConfigure_faults (s : State) : (scConfigure s).faults = s.faults := rfl
@[simp] theorem scConfigure_history (s : State) : (scConfigure s).history = s.history := rfl
@[simp] theorem scConfigure_schedule (s : State) : (scConfigure s).schedule = s.schedule := rfl
@[simp] theorem scConfigure_draws (s : State) : (scConfigure s).draws = s.draws := rfl

@[simp] theorem pwConfigure_cfg (s : State) : (pwConfigure s).cfg = s.cfg := rfl
@[simp] theorem pwConfigure_mem (s : State) : (pwConfigure s).mem = s.mem := rfl
@[simp] theorem pwConfigure_bufBase (s : State) : (pwConfigure s).bufBase = s.bufBase := rfl
@[simp] theorem pwConfigure_bufLen (s : State) : (pwConfigure s).bufLen = s.bufLen := rfl
@[simp] theorem pwConfigure_cursor (s : State) : (pwConfigure s).cursor = s.cursor := rfl
@[simp] theorem pwConfigure_sampleTmp (s : State) : (pwConfigure s).sampleTmp = s.sampleTmp := rfl
@[simp] theorem pwConfigure_phase (s : State) : (pwConfigure s).phase = s.phase := rfl
@[simp] theorem pwConfigure_scOvf (s : State) : (pwConfigure s).scOvf = s.scOvf := rfl
@[simp] theorem pwConfigure_gie (s : State) : (pwConfigure s).gie = s.gie := rfl
@[simp] theorem pwConfigure_scEn (s : State) : (pwConfigure s).scEn = s.scEn := rfl
@[simp] theorem pwConfigure_scOvfie (s : State) : (pwConfigure s).scOvfie = s.scOvfie := rfl
@[simp] theorem pwConfigure_scMode (s : State) : (pwConfigure s).scMode = s.scMode := rfl
@[simp] theorem pwConfigure_scDiv (s : State) : (pwConfigure s).scDiv = s.scDiv := rfl
@[simp] theorem pwConfigure_scPer (s : State) : (pwConfigure s).scPer = s.scPer := rfl
@[simp] theorem pwConfigure_scCnt (s : State) : (pwConfigure s).scCnt = s.scCnt := rfl
@[simp] theorem pwConfigure_pwEn (s : State) : (pwConfigure s).pwEn = true := rfl
@[simp] theorem pwConfigure_pwMode (s : State) : (pwConfigure s).pwMode = .pwm8 := rfl
@[simp] theorem pwConfigure_pwAsync (s : State) : (pwConfigure s).pwAsync = true := rfl
@[simp] theorem pwConfigure_pwOuten (s : State) : (pwConfigure s).pwOuten = true := rfl
@[simp] theorem pwConfigure_pwDiv (s : State) : (pwConfigure s).pwDiv = s.cfg.pwDivVal := rfl
@[simp] theorem pwConfigure_pwPer (s : State) : (pwConfigure s).pwPer = 255 := rfl
@[simp] theorem pwConfigure_pwCmp (s : State) : (pwConfigure s).pwCmp = s.cfg.pwInitCmp := rfl
@[simp] theorem pwConfigure_pwCmpAct (s : State) : (pwConfigure s).pwCmpAct =
    (if s.pwEn then s.pwCmpAct else s.cfg.pwInitCmp) := rfl
@[simp] theorem pwConfigure_pwCnt (s : State) : (pwConfigure s).pwCnt = s.pwCnt := rfl
@[simp] theorem pwConfigure_outDir (s : State) : (pwConfigure s).outDir = true := rfl
@[simp] theorem pwConfigure_outLvl (s : State) : (pwConfigure s).outLvl = s.outLvl := rfl
@[simp] theorem pwConfigure_route (s : State) : (pwConfigure s).route = true := rfl
@[simp] theorem pwConfigure_diagLvl (s : State) : (pwConfigure s).diagLvl = s.diagLvl := rfl
@[simp] theorem pwConfigure_clkSel (s : State) : (pwConfigure s).clkSel = s.clkSel := rfl
@[simp] theorem pwConfigure_faults (s : State) : (pwConfigure s).faults = s.faults := rfl
@[simp] theorem pwConfigure_history (s : State) : (pwConfigure s).history = s.history := rfl
@[simp] theorem pwConfigure_schedule (s : State) : (pwConfigure s).schedule = s.schedule := rfl
@[simp] theorem pwConfigure_draws (s : State) : (pwConfigure s).draws = s.draws := rfl

@[simp] theorem stopPlayback_cfg (s : State) : (stopPlayback s).cfg = s.cfg := rfl
@[simp] theorem stopPlayback_mem (s : State) : (stopPlayback s).mem = s.mem := rfl
@[simp] theorem stopPlayback_bufBase (s : State) : (stopPlayback s).bufBase = s.bufBase := rfl
@[simp] theorem stopPlayback_bufLen (s : State) : (stopPlayback s).bufLen = s.bufLen := rfl
@[simp] theorem stopPlayback_cursor (s : State) : (stopPlayback s).cursor = 0 := rfl
@[simp] theorem stopPlayback_sampleTmp (s : State) : (stopPlayback s).sampleTmp = s.sampleTmp := rfl
@[simp] theorem stopPlayback_phase (s : State) : (stopPlayback s).phase = s.phase := rfl
@[simp] theorem stopPlayback_scOvf (s : State) : (stopPlayback s).scOvf = s.scOvf := rfl
@[simp] theorem stopPlayback_gie (s : State) : (stopPlayback s).gie = s.gie := rfl
@[simp] theorem stopPlayback_scEn (s : State) : (stopPlayback s).scEn = s.scEn := rfl
@[simp] theorem stopPlayback_scOvfie (s : State) : (stopPlayback s).scOvfie = false := rfl
@[simp] theorem stopPlayback_scMode (s : State) : (stopPlayback s).scMode = s.scMode := rfl
@[simp] theorem stopPlayback_scDiv (s : State) : (stopPlayback s).scDiv = s.scDiv := rfl
@[simp] theorem stopPlayback_scPer (s : State) : (stopPlayback s).scPer = s.scPer := rfl
@[simp] theorem stopPlayback_scCnt (s : State) : (stopPlayback s).scCnt = s.scCnt := rfl
@[simp] theorem stopPlayback_pwEn (s : State) : (stopPlayback s).pwEn = false := rfl
@[simp] theorem stopPlayback_pwMode (s : State) : (stopPlayback s).pwMode = s.pwMode := rfl
@[simp] theorem stopPlayback_pwAsync (s : State) : (stopPlayback s).pwAsync = s.pwAsync := rfl
@[simp] theorem stopPlayback_pwOuten (s : State) : (stopPlayback s).pwOuten = s.pwOuten := rfl
@[simp] theorem stopPlayback_pwDiv (s : State) : (stopPlayback s).pwDiv = s.pwDiv := rfl
@[simp] theorem stopPlayback_pwPer (s : State) : (stopPlayback s).pwPer = s.pwPer := rfl
@[simp] theorem stopPlayback_pwCmp (s : State) : (stopPlayback s).pwCmp = s.pwCmp := rfl
@[simp] theorem stopPlayback_pwCmpAct (s : State) : (stopPlayback s).pwCmpAct = s.pwCmpAct := rfl
@[simp] theorem stopPlayback_pwCnt (s : State) : (stopPlayback s).pwCnt = s.pwCnt := rfl
@[simp] theorem stopPlayback_outDir (s : State) : (stopPlayback s).outDir = s.outDir := rfl
@[simp] theorem stopPlayback_outLvl (s : State) : (stopPlayback s).outLvl = false := rfl
@[simp] theorem stopPlayback_route (s : State) : (stopPlayback s).route = s.route := rfl
@[simp] theorem stopPlayback_diagLvl (s : State) : (stopPlayback s).diagLvl = s.diagLvl := rfl
@[simp] theorem stopPlayback_clkSel (s : State) : (stopPlayback s).clkSel = s.clkSel := rfl
@[simp] theorem stopPlayback_faults (s : State) : (stopPlayback s).faults = s.faults := rfl
@[simp] theorem stopPlayback_history (s : State) : (stopPlayback s).history = (s.history ++ [.evStop]) := rfl
@[simp] theorem stopPlayback_schedule (s : State) : (stopPlayback s).schedule = s.schedule := rfl
@[simp] theorem stopPlayback_draws (s : State) : (stopPlayback s).draws = s.draws := rfl

@[simp] theorem startPlayback_cfg (base len : Nat) (s : State) : (startPlayback base len s).cfg = s.cfg := rfl
@[simp] theorem startPlayback_mem (base len : Nat) (s : State) : (startPlayback base len s).mem = s.mem := rfl
@[simp] theorem startPlayback_bufBase (base len : Nat) (s : State) : (startPlayback base len s).bufBase =
    (some base) := rfl
@[simp] theorem startPlayback_bufLen (base len : Nat) (s : State) : (startPlayback base len s).bufLen =
    (some len) := rfl
@[simp] theorem startPlayback_cursor (base len : Nat) (s : State) : (startPlayback base len s).cursor = 0 := rfl
@[simp] theorem startPlayback_sampleTmp (base len : Nat) (s : State) : (startPlayback base len s).sampleTmp =
    s.sampleTmp := rfl
@[simp] theorem startPlayback_phase (base len : Nat) (s : State) : (startPlayback base len s).phase = s.phase := rfl
@[simp] theorem startPlayback_scOvf (base len : Nat) (s : State) : (startPlayback base len s).scOvf = s.scOvf := rfl
@[simp] theorem startPlayback_gie (base len : Nat) (s : State) : (startPlayback base len s).gie = true := rfl
@[simp] theorem startPlayback_scEn (base len : Nat) (s : State) : (startPlayback base len s).scEn = true := rfl
@[simp] theorem startPlayback_scOvfie (base len : Nat) (s : State) : (startPlayback base len s).scOvfie = true := rfl
@[simp] theorem startPlayback_scMode (base len : Nat) (s : State) : (startPlayback base len s).scMode = .normal := rfl
@[simp] theorem startPlayback_scDiv (base len : Nat) (s : State) : (startPlayback base len s).scDiv =
    s.cfg.scDivVal := rfl
@[simp] theorem startPlayback_scPer (base len : Nat) (s : State) : (startPlayback base len s).scPer =
    s.cfg.scPerVal := rfl
@[simp] theorem startPlayback_scCnt (base len : Nat) (s : State) : (startPlayback base len s).scCnt = s.scCnt := rfl
@[simp] theorem startPlayback_pwEn (base len : Nat) (s : State) : (startPlayback base len s).pwEn = true := rfl
@[simp] theorem startPlayback_pwMode (base len : Nat) (s : State) : (startPlayback base len s).pwMode = .pwm8 := rfl
@[simp] theorem startPlayback_pwAsync (base len : Nat) (s : State) : (startPlayback base len s).pwAsync = true := rfl
@[simp] theorem startPlayback_pwOuten (base len : Nat) (s : State) : (startPlayback base len s).pwOuten = true := rfl
@[simp] theorem startPlayback_pwDiv (base len : Nat) (s : State) : (startPlayback base len s).pwDiv =
    s.cfg.pwDivVal := rfl
@[simp] theorem startPlayback_pwPer (base len : Nat) (s : State) : (startPlayback base len s).pwPer = 255 := rfl
@[simp] theorem startPlayback_pwCmp (base len : Nat) (s : State) : (startPlayback base len s).pwCmp =
    s.cfg.pwInitCmp := rfl
@[simp] theorem startPlayback_pwCmpAct (base len : Nat) (s : State) : (startPlayback base len s).pwCmpAct =
    (if s.pwEn then s.pwCmpAct else s.cfg.pwInitCmp) := rfl
@[simp] theorem startPlayback_pwCnt (base len : Nat) (s : State) : (startPlayback base len s).pwCnt = s.pwCnt := rfl
@[simp] theorem startPlayback_outDir (base len : Nat) (s : State) : (startPlayback base len s).outDir = true := rfl
@[simp] theorem startPlayback_outLvl (base len : Nat) (s : State) : (startPlayback base len s).outLvl = s.outLvl := rfl
@[simp] theorem startPlayback_route (base len : Nat) (s : State) : (startPlayback base len s).route = true := rfl
@[simp] theorem startPlayback_diagLvl (base len : Nat) (s : State) : (startPlayback base len s).diagLvl =
    s.diagLvl := rfl
@[simp] theorem startPlayback_clkSel (base len : Nat) (s : State) : (startPlayback base len s).clkSel =
    s.cfg.clkSrcVal := rfl
@[simp] theorem startPlayback_faults (base len : Nat) (s : State) : (startPlayback base len s).faults = s.faults := rfl
@[simp] theorem startPlayback_history (base len : Nat) (s : State) : (startPlayback base len s).history =
    (s.history ++ [.evStart base len]) := rfl
@[simp] theorem startPlayback_schedule (base len : Nat) (s : State) : (startPlayback base len s).schedule =
    s.schedule := rfl
@[simp] theorem startPlayback_draws (base len : Nat) (s : State) : (startPlayback base len s).draws = s.draws := rfl

@[simp] theorem emitIfTickLost_cfg (s : State) : (emitIfTickLost s).cfg = s.cfg := rfl
@[simp] theorem emitIfTickLost_mem (s : State) : (emitIfTickLost s).mem = s.mem := rfl
@[simp] theorem emitIfTickLost_bufBase (s : State) : (emitIfTickLost s).bufBase = s.bufBase := rfl
@[simp] theorem emitIfTickLost_bufLen (s : State) : (emitIfTickLost s).bufLen = s.bufLen := rfl
@[simp] theorem emitIfTickLost_cursor (s : State) : (emitIfTickLost s).cursor = s.cursor := rfl
@[simp] theorem emitIfTickLost_sampleTmp (s : State) : (emitIfTickLost s).sampleTmp = s.sampleTmp := rfl
@[simp] theorem emitIfTickLost_phase (s : State) : (emitIfTickLost s).phase = s.phase := rfl
@[simp] theorem emitIfTickLost_scOvf (s : State) : (emitIfTickLost s).scOvf = s.scOvf := rfl
@[simp] theorem emitIfTickLost_gie (s : State) : (emitIfTickLost s).gie = s.gie := rfl
@[simp] theorem emitIfTickLost_scEn (s : State) : (emitIfTickLost s).scEn = s.scEn := rfl
@[simp] theorem emitIfTickLost_scOvfie (s : State) : (emitIfTickLost s).scOvfie = s.scOvfie := rfl
@[simp] theorem emitIfTickLost_scMode (s : State) : (emitIfTickLost s).scMode = s.scMode := rfl
@[simp] theorem emitIfTickLost_scDiv (s : State) : (emitIfTickLost s).scDiv = s.scDiv := rfl
@[simp] theorem emitIfTickLost_scPer (s : State) : (emitIfTickLost s).scPer = s.scPer := rfl
@[simp] theorem emitIfTickLost_scCnt (s : State) : (emitIfTickLost s).scCnt = s.scCnt := rfl
@[simp] theorem emitIfTickLost_pwEn (s : State) : (emitIfTickLost s).pwEn = s.pwEn := rfl
@[simp] theorem emitIfTickLost_pwMode (s : State) : (emitIfTickLost s).pwMode = s.pwMode := rfl
@[simp] theorem emitIfTickLost_pwAsync (s : State) : (emitIfTickLost s).pwAsync = s.pwAsync := rfl
@[simp] theorem emitIfTickLost_pwOuten (s : State) : (emitIfTickLost s).pwOuten = s.pwOuten := rfl
@[simp] theorem emitIfTickLost_pwDiv (s : State) : (emitIfTickLost s).pwDiv = s.pwDiv := rfl
@[simp] theorem emitIfTickLost_pwPer (s : State) : (emitIfTickLost s).pwPer = s.pwPer := rfl
@[simp] theorem emitIfTickLost_pwCmp (s : State) : (emitIfTickLost s).pwCmp = s.pwCmp := rfl
@[simp] theorem emitIfTickLost_pwCmpAct (s : State) : (emitIfTickLost s).pwCmpAct = s.pwCmpAct := rfl
@[simp] theorem emitIfTickLost_pwCnt (s : State) : (emitIfTickLost s).pwCnt = s.pwCnt := rfl
@[simp] theorem emitIfTickLost_outDir (s : State) : (emitIfTickLost s).outDir = s.outDir := rfl
@[simp] theorem emitIfTickLost_outLvl (s : State) : (emitIfTickLost s).outLvl = s.outLvl := rfl
@[simp] theorem emitIfTickLost_route (s : State) : (emitIfTickLost s).route = s.route := rfl
@[simp] theorem emitIfTickLost_diagLvl (s : State) : (emitIfTickLost s).diagLvl = s.diagLvl := rfl
@[simp] theorem emitIfTickLost_clkSel (s : State) : (emitIfTickLost s).clkSel = s.clkSel := rfl
@[simp] theorem emitIfTickLost_faults (s : State) : (emitIfTickLost s).faults = s.faults := rfl
@[simp] theorem emitIfTickLost_history (s : State) : (emitIfTickLost s).history =
    (if pending s then s.history ++ [.evTickLost] else s.history) := rfl
@[simp] theorem emitIfTickLost_schedule (s : State) : (emitIfTickLost s).schedule = s.schedule := rfl
@[simp] theorem emitIfTickLost_draws (s : State) : (emitIfTickLost s).draws = s.draws := rfl

end Sys2Proof.Machine
end

