-- ==== Sys2Proof/Laws/Ops.lean ====
section
/-! SUPPORT. One lemma per shared operation that says everything it can answer. -/

namespace Sys2Proof.Machine

@[simp] theorem nextState_next (s : State) : nextState (.next s) = some s := rfl

theorem nextState_eq_some {r : Result} {t : State} : nextState r = some t ↔ r = .next t := by
  cases r <;> simp [nextState]

/-- A guarded step answers a next state exactly when no fault is recorded, its guard holds and its action does. -/
theorem guarded_next {g : Bool} {r : Refusal} {s t : State} {act : Result} :
    guarded g r s act = .next t ↔ s.faults = [] ∧ g = true ∧ act = .next t := by
  unfold guarded
  cases hf : s.faults with
  | nil => cases g <;> simp
  | cons f fs => simp

/-- With no fault recorded and its guard true, a guarded step is its action. -/
theorem guarded_enabled {g : Bool} {r : Refusal} {s : State} {act : Result} (hf : s.faults = []) (hg : g = true) :
    guarded g r s act = act := by
  simp [guarded, hf, hg]

/-- With no fault recorded and its guard false, a step is not enabled. -/
theorem guarded_disabled {g : Bool} {r : Refusal} {s : State} {act : Result} (hf : s.faults = []) (hg : g = false) :
    guarded g r s act = .refused r := by
  simp [guarded, hf, hg]

/-- With a fault recorded a guarded step is stopped, whatever its guard. -/
theorem guarded_stopped {g : Bool} {r : Refusal} {s : State} {act : Result} (hf : s.faults ≠ []) :
    guarded g r s act = .fault .stopped := by
  unfold guarded
  cases h : s.faults with
  | nil => exact absurd h hf
  | cons _ _ => rfl

/-- An answer that is a next state is that one. -/
theorem next_eq {s t : State} : (Host.Outcome.next s : Result) = .next t ↔ t = s := by
  rw [Host.Outcome.next.injEq, eq_comm]

/-- A raise answers the state with its pair recorded. -/
theorem raise_next {c : FaultCode} {info : Option Nat} {s t : State} :
    raise c info s = .next t ↔ t = recordFault ⟨c, info⟩ s :=
  next_eq

/-- With no fault recorded before, a raise leaves exactly its own pair. -/
theorem recordFault_safe {r : FaultRecord} {s : State} (h : s.faults = []) :
    recordFault r s = { s with faults := [r] } := by
  simp [recordFault, h]

theorem wrap_lt (width v : Nat) : wrap width v < 2 ^ width := Nat.mod_lt _ (Nat.two_pow_pos width)

theorem wrap_of_lt {width v : Nat} (h : v < 2 ^ width) : wrap width v = v := Nat.mod_eq_of_lt h

theorem wrap_le (width v : Nat) : wrap width v ≤ v := Nat.mod_le _ _

/-- The buffer reference is held exactly when both its fields are. -/
theorem bufferHeld_some {s : State} {b n : Nat} :
    bufferHeld s = some (b, n) ↔ s.bufBase = some b ∧ s.bufLen = some n := by
  unfold bufferHeld
  cases s.bufBase <;> cases s.bufLen <;> simp

/-- The buffer reference is not held exactly when one of its fields is not. -/
theorem bufferHeld_none {s : State} : bufferHeld s = none ↔ s.bufBase = none ∨ s.bufLen = none := by
  unfold bufferHeld
  cases s.bufBase <;> cases s.bufLen <;> simp

end Sys2Proof.Machine
end

