-- ==== Sys2Proof/Laws/Exec.lean ====
section
/-! SUPPORT. One inversion lemma per operation: exactly when its meaning answers a next state, and which. -/

namespace Sys2Proof.Machine

theorem execIllegal_next {w : Word} {s t : State} :
    execIllegal w s = .next t ↔
      s.faults = [] ∧ s.phase = .idle ∧ t = recordFault ⟨.illegalCommand, some w.toNat⟩ s := by
  simp only [execIllegal, guarded_next, hostEnabled, decide_eq_true_eq, raise_next]

theorem execStart_next {base : BitVec 32} {len : BitVec 24} {s t : State} :
    execStart base len s = .next t ↔
      s.faults = [] ∧ s.phase = .idle ∧
        t = if Instr.wf s.cfg.addrW s.cfg.lenW (.start base len) then
            startPlayback (startBase s.cfg base) (startLen s.cfg len) s
          else recordFault ⟨.illegalCommand, some (encode (.start base len)).toNat⟩ s := by
  unfold execStart
  split_ifs with h
  · simp only [guarded_next, hostEnabled, decide_eq_true_eq, next_eq]
  · exact execIllegal_next

theorem execStop_next {s t : State} :
    execStop s = .next t ↔ s.faults = [] ∧ s.phase = .idle ∧ t = stopPlayback s := by
  simp only [execStop, guarded_next, hostEnabled, decide_eq_true_eq, next_eq]

theorem execScClk_next {s t : State} :
    execScClk s = .next t ↔
      s.faults = [] ∧ (s.scEn = true ∧ overflowHeld s = false) ∧
        t = if s.scMode = .normal then scCount s else recordFault ⟨.unmodelledConfig, some 0⟩ s := by
  unfold execScClk
  rw [guarded_next]
  cases h : s.scMode <;> simp [next_eq, raise_next, -Host.Outcome.next.injEq]

theorem execPwmClk_next {s t : State} :
    execPwmClk s = .next t ↔
      s.faults = [] ∧ s.pwEn = true ∧
        t = if s.pwMode = .pwm8 then pwCount s else recordFault ⟨.unmodelledConfig, some 1⟩ s := by
  unfold execPwmClk
  rw [guarded_next]
  cases h : s.pwMode <;> simp [next_eq, raise_next, -Host.Outcome.next.injEq]

theorem execIsrEntry_next {s t : State} :
    execIsrEntry s = .next t ↔
      s.faults = [] ∧ (s.phase = .idle ∧ s.gie = true ∧ s.scOvfie = true ∧ s.scOvf = true) ∧
        t = emit .evTick (enterInterrupt s) := by
  simp only [execIsrEntry, guarded_next, interruptTaken, Bool.and_eq_true, decide_eq_true_eq, and_assoc, next_eq]

theorem inPhase_next {p : Phase} {i : Instr} {s t : State} {act : Result} :
    inPhase p i s act = .next t ↔ s.faults = [] ∧ s.phase = p ∧ act = .next t := by
  simp [inPhase, guarded_next]

theorem execDiagToggle_next {s t : State} :
    execDiagToggle s = .next t ↔
      s.faults = [] ∧ s.phase = .a ∧
        t = { s with diagLvl := if s.cfg.diagHook then !s.diagLvl else s.diagLvl, phase := .b } := by
  rw [execDiagToggle, inPhase_next, next_eq]

/-- Everything LOAD_SAMPLE can leave: a fault in the order of 60_exceptions.md R206, an overrun under one of the two
policies that go on, or the byte held. -/
theorem loadSample_next {s t : State} :
    loadSample s = .next t ↔
      (bufferHeld s = none ∧ t = recordFault ⟨.noBuffer, none⟩ s) ∨
      (∃ n, bufferHeld s = some (s.cfg.nullAddr, n) ∧ t = recordFault ⟨.nullBuffer, some s.cursor⟩ s) ∨
      (∃ b n, bufferHeld s = some (b, n) ∧ b ≠ s.cfg.nullAddr ∧ n ≤ s.cursor ∧
        ((s.cfg.overrunPolicy = .fault ∨ s.cfg.overrunPolicy = .wrap) ∧
            t = recordFault ⟨.overrun, some s.cursor⟩ s ∨
          s.cfg.overrunPolicy = .autostop ∧ t = emit .evAutoStop { s with scOvfie := false, phase := .e } ∨
          s.cfg.overrunPolicy = .unchecked ∧
            t = emit (.evOverrunRead s.cursor) (holdSample (Config.drawByte s.draws) (advanceDraws s)))) ∨
      (∃ b n, bufferHeld s = some (b, n) ∧ b ≠ s.cfg.nullAddr ∧ s.cursor < n ∧
        t = if b + s.cursor < s.cfg.memSize then holdSample (Memory.read s.mem (b + s.cursor)) s
          else recordFault ⟨.memRange, some (b + s.cursor)⟩ s) := by
  unfold loadSample
  cases hb : bufferHeld s with
  | none => simp [raise_next]
  | some p =>
    obtain ⟨b, n⟩ := p
    by_cases hn : b = s.cfg.nullAddr
    · simp [hn, raise_next]
    · by_cases ho : n ≤ s.cursor
      · simp only [hn, ho, if_true, if_false, overrun]
        cases hp : s.cfg.overrunPolicy <;>
          simp [hn, ho, raise_next, next_eq, Nat.not_lt.mpr ho, -Host.Outcome.next.injEq]
      · have hlt : s.cursor < n := by omega
        simp only [hn, ho, if_false, loadInBuffer, memRead_eq, effectiveAddress]
        by_cases hm : b + s.cursor < s.cfg.memSize <;>
          simp [hm, hn, ho, hlt, raise_next, next_eq, -Host.Outcome.next.injEq]

theorem execLoadSample_next {s t : State} :
    execLoadSample s = .next t ↔ s.faults = [] ∧ s.phase = .b ∧ loadSample s = .next t := by
  rw [execLoadSample, inPhase_next]

theorem execWriteCmp_next {s t : State} :
    execWriteCmp s = .next t ↔
      s.faults = [] ∧ s.phase = .c ∧
        ((s.sampleTmp = none ∧ t = recordFault ⟨.unwrittenRead, none⟩ s) ∨
          ∃ v, s.sampleTmp = some v ∧ t = emit (.evCmpWrite v) { s with pwCmp := v, phase := .d }) := by
  rw [execWriteCmp, inPhase_next, writeCmp]
  cases h : s.sampleTmp <;> simp [raise_next, next_eq, -Host.Outcome.next.injEq]

theorem execIncCursor_next {s t : State} :
    execIncCursor s = .next t ↔
      s.faults = [] ∧ s.phase = .d ∧
        t = { s with
          cursor := nextCursor s, phase := .e, draws := if incDraws s then s.draws + 1 else s.draws } := by
  rw [execIncCursor, inPhase_next, next_eq]

theorem execClearOvf_next {s t : State} :
    execClearOvf s = .next t ↔ s.faults = [] ∧ s.phase = .e ∧ t = { s with scOvf := false, phase := .ret } := by
  rw [execClearOvf, inPhase_next, next_eq]

theorem execReti_next {s t : State} :
    execReti s = .next t ↔ s.faults = [] ∧ s.phase = .ret ∧ t = returnFromInterrupt s := by
  rw [execReti, inPhase_next, next_eq]

end Sys2Proof.Machine
end

