-- ==== Sys2Proof/Laws/PerInstr.lean ====
section
/-! SUPPORT. For every operation: the fields of its word are its operation code and its operands (30_encoding.md R80). -/

namespace Sys2Proof.Laws.Fields

/-- The three fields of the word of `i`. -/
def Statement (i : Instr) : Prop :=
  Word.opc (encode i) = i.opcode ∧ Word.len (encode i) = i.operands.1 ∧ Word.base (encode i) = i.operands.2

theorem of_instr (i : Instr) : Statement i := ⟨opc_append _ _ _, len_append _ _ _, base_append _ _ _⟩

theorem start (base : BitVec 32) (len : BitVec 24) : Statement (.start base len) := of_instr _
theorem stop : Statement .stop := of_instr _
theorem scClk : Statement .scClk := of_instr _
theorem pwmClk : Statement .pwmClk := of_instr _
theorem isrEntry : Statement .isrEntry := of_instr _
theorem diagToggle : Statement .diagToggle := of_instr _
theorem loadSample : Statement .loadSample := of_instr _
theorem writeCmp : Statement .writeCmp := of_instr _
theorem incCursor : Statement .incCursor := of_instr _
theorem clearOvf : Statement .clearOvf := of_instr _
theorem reti : Statement .reti := of_instr _

end Sys2Proof.Laws.Fields
end

