-- ==== Sys2Proof/Laws/Step.lean ====
section
/-! SUPPORT. What a turn and a step can answer, and the one induction over them: what every operation keeps, every step
keeps. -/

namespace Sys2Proof.Machine

/-- A turn that answers a next state ran an operation its word names, or raised ILLEGAL_COMMAND. -/
theorem takeTurn_next {t : Turn} {s u : State} (h : takeTurn t s = .next u) :
    (∃ i, decodeHere s t.word = .ok i ∧ exec i s = .next u) ∨
      t.issuer = .host ∧ execIllegal t.word s = .next u := by
  obtain ⟨issuer, w⟩ := t
  cases issuer <;> simp only [takeTurn, hostTurn, blockTurn] at h ⊢
  · split at h
    · split_ifs at h with hc
      · exact .inl ⟨_, ‹_›, h⟩
      · exact .inr ⟨trivial, h⟩
    · exact .inr ⟨trivial, h⟩
  · split at h
    · split_ifs at h with hc
      exact .inl ⟨_, ‹_›, h⟩
    · cases h

/-- A step that answers a next state took the first scheduled turn, or a drawn one, or drew a turn that was not enabled. -/
theorem step_next {s t : State} (h : step s = .next t) :
    s.faults = [] ∧
      ((∃ turn rest, s.schedule = turn :: rest ∧ takeTurn turn (popTurn s) = .next t) ∨
        s.schedule = [] ∧ (t = advanceDraws s ∨ ∃ turn, takeTurn turn (advanceDraws s) = .next t)) := by
  unfold step nextStep at h
  split at h
  · cases h
  · rename_i hf hs
    exact ⟨hf, .inl ⟨_, _, hs, h⟩⟩
  · rename_i hf hs
    refine ⟨hf, .inr ⟨hs, ?_⟩⟩
    unfold takeDrawnTurn at h
    split at h
    · rename_i u hu
      exact .inr ⟨_, hu.trans h⟩
    · cases h
    · simp only [Host.Outcome.next.injEq] at h
      exact .inl h.symm

/-- A predicate that does not depend on the schedule or the draws, and that every operation and every illegal command
keeps, is kept by every step. -/
theorem step_keeps {P : State → Prop}
    (hown : ∀ s l d, P s → P { s with schedule := l, draws := d })
    (hexec : ∀ i s t, P s → exec i s = .next t → P t)
    (hillegal : ∀ w s t, P s → execIllegal w s = .next t → P t)
    {s t : State} (hs : P s) (h : step s = .next t) : P t := by
  have hturn : ∀ turn s u, P s → takeTurn turn s = .next u → P u := fun turn s u hs hu => by
    rcases takeTurn_next hu with ⟨i, _, hi⟩ | ⟨_, hi⟩
    · exact hexec i s u hs hi
    · exact hillegal _ s u hs hi
  rcases (step_next h).2 with ⟨turn, rest, _, ht⟩ | ⟨_, rfl | ⟨turn, ht⟩⟩
  · exact hturn turn _ t (hown s s.schedule.tail s.draws hs) ht
  · exact hown s s.schedule (s.draws + 1) hs
  · exact hturn turn _ t (hown s s.schedule (s.draws + 1) hs) ht

/-- What every launch has and every step keeps, every reachable state has. -/
theorem reachable_induction {P : State → Prop}
    (hlaunch : ∀ cfg mem turns draws, cfg.wf = true → Memory.wf mem = true → Memory.within cfg.memSize mem = true →
      P (State.launched cfg mem turns draws))
    (hstep : ∀ s t, P s → step s = .next t → P t) {s : State} (h : Reachable s) : P s := by
  induction h with
  | launch cfg mem turns draws hc hm hw => exact hlaunch cfg mem turns draws hc hm hw
  | step _ ht ih => exact hstep _ _ ih ht

/-- Taking operations one after the other, split at the first. -/
theorem execAll_cons_next {i : Instr} {rest : List Instr} {s t : State} :
    execAll (i :: rest) s = .next t ↔ ∃ u, exec i s = .next u ∧ execAll rest u = .next t := by
  simp only [execAll]
  cases exec i s <;> simp

/-- A trace of two parts. -/
theorem execAll_append_next {xs ys : List Instr} {s t : State} :
    execAll (xs ++ ys) s = .next t ↔ ∃ u, execAll xs s = .next u ∧ execAll ys u = .next t := by
  induction xs generalizing s with
  | nil => simp [execAll]
  | cons i rest ih =>
    rw [List.cons_append, execAll_cons_next]
    constructor
    · rintro ⟨u, hu, h⟩
      obtain ⟨v, hv, h'⟩ := ih.mp h
      exact ⟨v, execAll_cons_next.mpr ⟨u, hu, hv⟩, h'⟩
    · rintro ⟨v, hv, h'⟩
      obtain ⟨u, hu, hr⟩ := execAll_cons_next.mp hv
      exact ⟨u, hu, ih.mpr ⟨v, hr, h'⟩⟩

end Sys2Proof.Machine
end

