-- ==== Sys2Proof/Machine/Timing.lean ====
section
/-! DEFINITION. The informative rates of 70_reset_and_hazards.md R243 and R244. The model has no time (R245): no step
reads any of these. -/

namespace Sys2Proof.Machine

/-- The tick rate in Hz, `F_CLK / (SC_DIV × (SC_PER_VAL + 1))`, with `scDiv` the division factor `SC_DIV_VAL` selects
(70_reset_and_hazards.md R243, which marks the formula as general knowledge). -/
def tickRate (c : Config) (scDiv : Nat) : Rat := (c.fClk : Rat) / ((scDiv : Rat) * ((c.scPerVal : Rat) + 1))

/-- The PWM carrier in Hz, `F_CLK / (PW_DIV × 256)`, with `pwDiv` the division factor `PW_DIV_VAL` selects
(70_reset_and_hazards.md R244, which marks the formula as general knowledge). -/
def carrierRate (c : Config) (pwDiv : Nat) : Rat := (c.fClk : Rat) / ((pwDiv : Rat) * 256)

end Sys2Proof.Machine
end

