-- ==== Sys2Proof/Tests/Slice0.lean ====
section
/-! SUPPORT. Tests, each a named theorem on one step of a small state, with results from 95_test_vectors.md, and for every
statement with hypotheses a witness that meets them. -/

namespace Sys2Proof.Machine.Tests

/-- The common parameters of 95_test_vectors.md; the abstract ones are any name. -/
def cfg : Config where
  addrW := 16
  lenW := 16
  cursorW := 16
  scW := 16
  memSize := 0x200
  nullAddr := 0
  scPerVal := 3
  scDivVal := ⟨1⟩
  pwDivVal := ⟨2⟩
  pwInitCmp := 0x80
  clkSrcVal := ⟨3⟩
  fClk := 16000000
  overrunPolicy := .fault
  diagHook := true
  assumeNoTickLoss := false

/-- The sample memory of 95_test_vectors.md. -/
def mem : Memory := Memory.setBytes [] 0x100 [0x10, 0x80, 0xF0, 0x55]

/-- The reset state of 95_test_vectors.md. -/
def boot : State := State.boot cfg mem

/-- Playing the three-sample buffer, in a given phase: the default before-states of 95_test_vectors.md 2.2 to 2.4. -/
def stateIn (p : Phase) : State :=
  { boot with
    bufBase := some 0x100, bufLen := some 3, scEn := true, scOvfie := true, scMode := .normal, scPer := 3, pwEn := true,
    pwMode := .pwm8, pwPer := 255, outDir := true, route := true, pwOuten := true, gie := decide (p = .idle),
    phase := p, pwCmp := 0x80, pwCmpAct := 0x80 }

/-- A state with another overrun policy. -/
def under (o : OverrunPolicy) (s : State) : State := { s with cfg := { s.cfg with overrunPolicy := o } }

/-- Some fields of the state an operation leaves. -/
def after {α : Type} (i : Instr) (s : State) (f : State → α) : Option α := (nextState (exec i s)).map f

/-- Some fields of the state a host word leaves. -/
def issued {α : Type} (w : Word) (s : State) (f : State → α) : Option α :=
  (nextState (takeTurn ⟨.host, w⟩ s)).map f

/-! ## Well-formedness: one ill-formed term for each check (30_encoding.md R82) -/

theorem test_wf_largest : Instr.wf 16 16 (.start 0xFFFF 0xFFFF) = true := by decide
theorem test_wf_base_refused : Instr.wf 16 16 (.start 0x10000 0) = false := by decide
theorem test_wf_len_refused : Instr.wf 16 16 (.start 0 0x10000) = false := by decide
theorem test_wf_params : cfg.wf = true := by decide
theorem test_wf_params_refused : Config.wf { cfg with lenW := 17 } = false ∧ Config.wf { cfg with memSize := 0 } = false ∧
    Config.wf { cfg with memSize := 0x10001 } = false ∧ Config.wf { cfg with nullAddr := 0x10000 } = false ∧
    Config.wf { cfg with scPerVal := 0x10000 } = false := by decide
theorem test_memory_canonical : Memory.wf mem = true ∧ Memory.wf [(1, 7), (1, 8)] = false ∧ Memory.wf [(1, 0)] = false := by
  decide
theorem test_memory_within : Memory.within 0x200 mem = true ∧ Memory.within 0x103 mem = false := by decide

/-! ## Decoding: each operation from a word written out from 30_encoding.md R80 to R83 (R90, V-EN1 to V-EN8) -/

theorem test_decode_start : decode 16 16 0x0100000300000100#64 = .ok (.start 0x0100 3) := by decide
theorem test_decode_start_wide : decode 32 24 0x01ABCDEF89ABCDEF#64 = .ok (.start 0x89ABCDEF 0xABCDEF) := by decide
theorem test_decode_stop : decode 16 16 0x0200000000000000#64 = .ok .stop := by decide
theorem test_decode_scClk : decode 16 16 0x8000000000000000#64 = .ok .scClk := by decide
theorem test_decode_pwmClk : decode 16 16 0x8100000000000000#64 = .ok .pwmClk := by decide
theorem test_decode_isrEntry : decode 16 16 0x9000000000000000#64 = .ok .isrEntry := by decide
theorem test_decode_diagToggle : decode 16 16 0x9100000000000000#64 = .ok .diagToggle := by decide
theorem test_decode_loadSample : decode 16 16 0x9200000000000000#64 = .ok .loadSample := by decide
theorem test_decode_writeCmp : decode 16 16 0x9300000000000000#64 = .ok .writeCmp := by decide
theorem test_decode_incCursor : decode 16 16 0x9400000000000000#64 = .ok .incCursor := by decide
theorem test_decode_clearOvf : decode 16 16 0x9500000000000000#64 = .ok .clearOvf := by decide
theorem test_decode_reti : decode 16 16 0x9600000000000000#64 = .ok .reti := by decide
theorem test_decode_rejects : decode 16 16 0x7F00000000000000#64 = .error .reservedOpcode ∧
    decode 16 16 0x8200000000000000#64 = .error .reservedOpcode ∧
    decode 16 16 0xFF00000000000000#64 = .error .reservedOpcode ∧
    decode 16 16 0x9600000000000001#64 = .error .operandBits ∧
    decode 16 16 0x8080000000000000#64 = .error .operandBits := by decide
/-- Little-endian bytes (20_memory.md R64): START 0x0100, 3. -/
theorem test_decode_bytes :
    decodeBytes 16 16 [0x00, 0x01, 0x00, 0x00, 0x03, 0x00, 0x00, 0x01, 0xAA] = .ok (.start 0x0100 3, [0xAA]) := by decide
theorem test_decode_truncated : decodeBytes 16 16 [0x00, 0x01, 0x00, 0x00, 0x03, 0x00, 0x00] = .error .truncated := by decide
/-- The table's numbering, at the reset widths. -/
theorem test_decode_table : decodeTableWord 64 0x0100000300000100 = some (.start 0x0100 3) ∧
    decodeTableWord 64 0x9600000000000000 = some .reti ∧ decodeTableWord 64 0x9700000000000000 = none := by decide

/-! ## Sample Clock (95_test_vectors.md 2.2) -/

/-- V-SC4. -/
theorem test_scClk_lost : after .scClk { stateIn .idle with scCnt := 3, scOvf := true }
    (fun t => (t.scCnt, t.scOvf, t.history)) = some (0, true, [.evTickLost]) := by decide
/-- V-SC8. -/
theorem test_scClk_wraps : after .scClk { stateIn .idle with scCnt := 0xFFFF } (fun t => (t.scCnt, t.scOvf)) =
    some (0, false) := by decide

/-! ## Tick sequencer (95_test_vectors.md 2.3) -/

/-- V-TS1. -/
theorem test_isrEntry : after .isrEntry { stateIn .idle with scOvf := true } (fun t => (t.phase, t.gie, t.scOvf, t.history)) =
    some (.a, false, true, [.evTick]) := by decide
/-- V-TS4. -/
theorem test_isrEntry_no_nesting : after .isrEntry { stateIn .c with gie := true, scOvf := true } State.phase = none := by decide
/-- V-TS6 and V-TS7. -/
theorem test_diagToggle : after .diagToggle (stateIn .a) (fun t => (t.phase, t.diagLvl)) = some (.b, true) ∧
    after .diagToggle { stateIn .a with cfg := { cfg with diagHook := false } } (fun t => (t.phase, t.diagLvl)) =
      some (.b, false) := by decide
/-- V-TS9. -/
theorem test_loadSample_last : after .loadSample { stateIn .b with cursor := 2 } (fun t => (t.sampleTmp, t.phase)) =
    some (some 0xF0, .c) := by decide
/-- V-TS14 and V-TS16: the order of the faults. -/
theorem test_loadSample_fault_order :
    after .loadSample { stateIn .b with bufBase := some 0, cursor := 5 } State.faults = some [⟨.nullBuffer, some 5⟩] ∧
    after .loadSample { stateIn .b with bufBase := some 0x1FF, cursor := 3 } State.faults = some [⟨.overrun, some 3⟩] := by
  decide
/-- V-TS19: written though unchanged. -/
theorem test_writeCmp : after .writeCmp { stateIn .c with sampleTmp := some 0xFF, pwCmp := 0xFF }
    (fun t => (t.pwCmp, t.pwCmpAct, t.phase, t.history)) = some (0xFF, 0x80, .d, [.evCmpWrite 0xFF]) := by decide
/-- V-TS20. -/
theorem test_writeCmp_unwritten : after .writeCmp (stateIn .c) State.faults = some [⟨.unwrittenRead, none⟩] := by decide
/-- V-TS22. -/
theorem test_incCursor_wrap : after .incCursor (under .wrap { stateIn .d with cursor := 2 }) (fun t => (t.cursor, t.phase)) =
    some (0, .e) := by decide
/-- V-TS24. -/
theorem test_incCursor_unchecked : after .incCursor (under .unchecked { stateIn .d with cursor := 0xFFFF }) State.cursor =
    some 0 := by decide
/-- V-TS25. -/
theorem test_clearOvf : after .clearOvf { stateIn .e with scOvf := true } (fun t => (t.scOvf, t.phase)) = some (false, .ret) := by
  decide
/-- V-TS26. -/
theorem test_reti : after .reti { stateIn .ret with sampleTmp := some 0x10 } (fun t => (t.phase, t.gie, t.sampleTmp)) =
    some (.idle, true, none) := by decide

/-! ## Duty-Cycle Output (95_test_vectors.md 2.4) -/

/-- V-PW1. -/
theorem test_pwmClk_counts : after .pwmClk { stateIn .idle with pwCnt := 7 } State.pwCnt = some 8 := by decide
/-- V-PW2. -/
theorem test_pwmClk_latches : after .pwmClk { stateIn .idle with pwCnt := 255, pwCmp := 0x40, pwCmpAct := 0x10 }
    (fun t => (t.pwCnt, t.pwCmpAct)) = some (0, 0x40) := by decide
/-- V-PW5 to V-PW11. -/
theorem test_audioPin : audioPin { stateIn .idle with outDir := false } = .hiz ∧
    audioPin { stateIn .idle with pwCmpAct := 255, pwCnt := 254 } = .high ∧
    audioPin { stateIn .idle with pwCmpAct := 255, pwCnt := 255 } = .low ∧ audioPin { stateIn .idle with pwEn := false } = .low ∧
    audioPin { stateIn .idle with route := false } = .low := by decide

/-! ## Lifecycle (95_test_vectors.md 2.5) -/

/-- V-LC1. -/
theorem test_start : after (.start 0x100 3) boot (fun t => (t.bufBase, t.bufLen, t.pwCmpAct, t.gie, audioPin t)) =
    some (some 0x100, some 3, 0x80, true, .high) := by decide
/-- V-LC3 and V-PW12: a restart keeps the flag and the latch. -/
theorem test_start_restart :
    after (.start 0x101 2) { stateIn .idle with cursor := 2, scOvf := true, pwCmp := 0x33, pwCmpAct := 0x33 }
      (fun t => (t.bufBase, t.cursor, t.scOvf, t.pwCmp, t.pwCmpAct)) = some (some 0x101, 0, true, 0x80, 0x33) := by decide
/-- V-LC6. -/
theorem test_stop : after .stop { stateIn .idle with cursor := 2 } (fun t => (t.scOvfie, t.pwEn, t.cursor, audioPin t)) =
    some (false, false, 0, .low) := by decide
/-- V-LC5. -/
theorem test_stop_reset : after .stop boot (fun t => (audioPin t, t.history, t.faults)) = some (.hiz, [.evStop], []) := by
  decide
/-- V-LC9. -/
theorem test_host_step_label : issued 0x9300000000000000#64 boot State.faults =
    some [⟨.illegalCommand, some 0x9300000000000000⟩] := by decide
/-- V-LC4. -/
theorem test_host_held : issued 0x0200000000000000#64 (stateIn .c) State.phase = none := by decide

/-! ## Rates (70_reset_and_hazards.md R243, R244) -/

theorem test_tickRate : tickRate { cfg with scPerVal := 1999 } 1 = 8000 := by norm_num [tickRate, cfg]
theorem test_carrierRate : carrierRate cfg 1 = 62500 := by norm_num [carrierRate, cfg]

/-! ## Witnesses: for every statement with hypotheses, a state and operands that meet them, clause by clause -/

/-- The interrupt can be taken. -/
def ready : State := { stateIn .idle with scOvf := true }

/-- `s` with turns scheduled. -/
def queued (turns : List Turn) (s : State) : State := { s with schedule := turns }

theorem witness_DecodeOfEncode : Instr.wf 16 16 (.start 0xFFFF 0xFFFF) = true ∧ Instr.wf 16 16 .reti = true := by decide

theorem witness_EncodeOfDecode : decode 16 16 0x0100FFFF0000FFFF#64 = .ok (.start 0xFFFF 0xFFFF) ∧
    decode 16 16 0x9600000000000000#64 = .ok .reti := by decide

theorem witness_OpcodeMap : (0x9600000000000000#64).toNat % 2 ^ 56 = 0 ∧ (0x9700000000000000#64).toNat % 2 ^ 56 = 0 := by
  decide

theorem witness_StartOperands : boot.faults = [] ∧ boot.phase = .idle ∧
    (∀ w ∈ [0x0100FFFF0000FFFF#64, 0x0100000000010000#64, 0x0101000000000000#64], w.toNat / 2 ^ 56 = 0x01) ∧
    ((0x0100FFFF0000FFFF#64).toNat % 2 ^ 32 < 2 ^ boot.cfg.addrW ∧
      (0x0100FFFF0000FFFF#64).toNat / 2 ^ 32 % 2 ^ 24 < 2 ^ boot.cfg.lenW) ∧
    2 ^ boot.cfg.addrW ≤ (0x0100000000010000#64).toNat % 2 ^ 32 ∧
    2 ^ boot.cfg.lenW ≤ (0x0101000000000000#64).toNat / 2 ^ 32 % 2 ^ 24 := by simp [boot, State.boot, cfg]

theorem witness_OperandFreeWords : boot.faults = [] ∧ boot.phase = .idle ∧
    ∀ w ∈ [0x0200000000000001#64, 0x9600000000000001#64, 0x8080000000000000#64],
      w.toNat / 2 ^ 56 ≠ 0x01 ∧ w.toNat % 2 ^ 56 ≠ 0 := by simp [boot, State.boot, cfg]

theorem witness_IllegalCommandFault : boot.faults = [] ∧ boot.phase = .idle ∧
    ∀ w ∈ [0x0000000000000000#64, 0x9300000000000000#64, 0x0200000000000001#64, 0x0100000000010000#64],
      ¬ (w.toNat / 2 ^ 56 = 0x02 ∧ w.toNat % 2 ^ 56 = 0) ∧
      ¬ (w.toNat / 2 ^ 56 = 0x01 ∧ w.toNat % 2 ^ 32 < 2 ^ boot.cfg.addrW ∧
          w.toNat / 2 ^ 32 % 2 ^ 24 < 2 ^ boot.cfg.lenW) := by simp [boot, State.boot, cfg]

theorem witness_BytesLittleEndian : (0 : Nat) < 8 ∧ (7 : Nat) < 8 := by decide

/-- A host command and a step label; with nothing scheduled, whichever turn is drawn. -/
theorem witness_StepRunsDecoded :
    (ready.faults = [] ∧ decode ready.cfg.addrW ready.cfg.lenW 0x9000000000000000#64 = .ok .isrEntry ∧
      ((Turn.mk .block 0x9000000000000000#64).issuer = .host ↔ Instr.isrEntry.agent = .h) ∧
      decode ready.cfg.addrW ready.cfg.lenW 0x0200000000000000#64 = .ok .stop ∧
      ((Turn.mk .host 0x0200000000000000#64).issuer = .host ↔ Instr.stop.agent = .h)) ∧
    ready.schedule = [] ∧
      ((∃ u, takeTurn (Config.drawTurn ready.draws) { ready with draws := ready.draws + 1 } = .next u) ∨
        (∃ f, takeTurn (Config.drawTurn ready.draws) { ready with draws := ready.draws + 1 } = .fault f) ∨
        ∃ r, takeTurn (Config.drawTurn ready.draws) { ready with draws := ready.draws + 1 } = .refused r) := by
  refine ⟨by decide, rfl, ?_⟩
  cases takeTurn (Config.drawTurn ready.draws) { ready with draws := ready.draws + 1 } with
  | next u => exact .inl ⟨u, rfl⟩
  | fault f => exact .inr (.inl ⟨f, rfl⟩)
  | refused r => exact .inr (.inr ⟨r, rfl⟩)

theorem witness_PlacedOperationRuns : Instr.wf State.reset.cfg.addrW State.reset.cfg.lenW (.start 0xFFFF 0xFFFF) = true := by
  decide

theorem witness_FaultStopsBlock : { boot with faults := [⟨.overrun, some 3⟩] }.faults ≠ [] := by decide

theorem witness_MemoryNeverWritten : ∃ t, step (queued [⟨.host, 0x0200000000000000#64⟩] ready) = .next t := ⟨_, rfl⟩

theorem witness_MemReadPrimitive : 0x1FF < boot.cfg.memSize ∧ boot.cfg.memSize ≤ 0x200 := by decide

theorem witness_MemoryReadsListed : Memory.wf mem = true ∧ (0x100, 0x10) ∈ mem ∧ (0x103, 0x55) ∈ mem ∧
    (∀ v : Byte, (0x104, v) ∉ mem) ∧ (∀ v : Byte, (0xFF, v) ∉ mem) ∧ Memory.wf boot.mem = true ∧ (0x103, 0x55) ∈ boot.mem ∧
    0x103 < boot.cfg.memSize := by
  decide

/-- From a stopped PWM, from a running one, held, and each operand out of range. -/
theorem witness_StartEffect : (0xFFFF#32).toNat < 2 ^ boot.cfg.addrW ∧ (0xFFFF#24).toNat < 2 ^ boot.cfg.lenW ∧
    (boot.faults = [] ∧ boot.phase = .idle ∧ boot.pwEn = false) ∧
    (ready.faults = [] ∧ ready.phase = .idle ∧ ready.pwEn = true) ∧
    ((stateIn .ret).faults = [] ∧ (stateIn .ret).phase ≠ .idle) ∧
    2 ^ boot.cfg.addrW ≤ (0x10000#32).toNat ∧ 2 ^ boot.cfg.lenW ≤ (0x10000#24).toNat := by decide

theorem witness_StopEffect : (boot.faults = [] ∧ boot.phase = .idle) ∧ (stateIn .a).faults = [] ∧
    (stateIn .a).phase ≠ .idle ∧ { boot with faults := [⟨.overrun, some 3⟩] }.faults ≠ [] := by decide

theorem witness_HostHeldDuringHandler : ready.faults = [] ∧ ∃ t, exec .reti (stateIn .ret) = .next t := ⟨rfl, _, rfl⟩

theorem witness_StopIdempotent : ∃ t, exec .stop ready = .next t := ⟨_, rfl⟩

/-- The counter goes on after the STOP. -/
theorem witness_NoPlaybackAfterStop : (∀ i ∈ [Instr.scClk, .stop], mnemonic i ≠ "START") ∧
    ∃ t u, exec .stop ready = .next t ∧ execAll [.scClk, .stop] t = .next u := ⟨by decide, _, _, rfl, rfl⟩

theorem witness_RestartPlaysNewBuffer : ready.faults = [] ∧ ready.phase = .idle ∧ ready.scOvf = true ∧
    (0x101#32).toNat < 2 ^ ready.cfg.addrW ∧ (1#24).toNat < 2 ^ ready.cfg.lenW ∧ (0x101#32).toNat ≠ ready.cfg.nullAddr ∧
    0 < (1#24).toNat ∧ (0x101#32).toNat < ready.cfg.memSize := by decide

/-- Not enabled; the mode not modelled; an overflow that sets the flag, one that merges, and a count; TOP at 0 and at the
largest value. -/
theorem witness_SampleClockCount : boot.faults = [] ∧ boot.scEn = false ∧
    (stateIn .idle).faults = [] ∧ (stateIn .idle).scEn = true ∧ (stateIn .idle).cfg.assumeNoTickLoss = false ∧
    { stateIn .idle with scMode := .other }.scMode = .other ∧ (stateIn .idle).scMode = .normal ∧
    { stateIn .idle with scCnt := 3 }.scCnt = { stateIn .idle with scCnt := 3 }.scPer ∧
    { stateIn .idle with scCnt := 0xFFFF, scPer := 0xFFFF }.scCnt = { stateIn .idle with scCnt := 0xFFFF, scPer := 0xFFFF }.scPer ∧
    { stateIn .idle with scPer := 0 }.scCnt = { stateIn .idle with scPer := 0 }.scPer ∧
    { ready with scCnt := 3 }.scCnt = { ready with scCnt := 3 }.scPer ∧ ready.scOvf = true ∧ ready.scOvfie = true ∧
    { stateIn .idle with scCnt := 2 }.scCnt ≠ { stateIn .idle with scCnt := 2 }.scPer := by decide

/-- An overflow while the flag is set: the interrupt disabled or enabled, without and with the assumption, in phase E and
in phase IDLE. -/
theorem witness_LostTicks : ∀ p ∈ [Phase.e, .idle], ∀ n ∈ [false, true], ∀ e ∈ [false, true],
    let s := { stateIn p with cfg := { cfg with assumeNoTickLoss := n }, scOvf := true, scCnt := 3, scOvfie := e }
    s.faults = [] ∧ s.scEn = true ∧ s.scMode = .normal ∧ s.scCnt = s.scPer ∧ s.scOvf = true ∧ s.scOvfie = e ∧
      s.cfg.assumeNoTickLoss = n ∧ s.phase = p := by decide

theorem witness_NoTickLossAssumed :
    ∃ t, exec .scClk { stateIn .idle with cfg := { cfg with assumeNoTickLoss := true } } = .next t := ⟨_, rfl⟩

theorem witness_SamplePeriodOverflowsOnce : ∀ n ∈ [0, 3, 0xFFFF],
    let s := { stateIn .idle with scPer := n }
    s.faults = [] ∧ s.scEn = true ∧ s.scMode = .normal ∧ s.scCnt = 0 ∧ s.scOvf = false ∧ s.scPer < 2 ^ s.cfg.scW := by
  decide

theorem witness_InterruptEntry : ready.faults = [] ∧
    (ready.phase = .idle ∧ ready.gie = true ∧ ready.scOvfie = true ∧ ready.scOvf = true) ∧
    ∀ s ∈ [{ ready with gie := false }, { ready with scOvfie := false }, { ready with scOvf := false },
        { ready with phase := .c }],
      s.faults = [] ∧ ¬ (s.phase = .idle ∧ s.gie = true ∧ s.scOvfie = true ∧ s.scOvf = true) := by decide

theorem witness_DiagnosticToggle : (stateIn .a).faults = [] ∧ (stateIn .a).phase = .a ∧ (stateIn .a).cfg.diagHook = true ∧
    { cfg with diagHook := false }.diagHook = false ∧ (stateIn .b).faults = [] ∧ (stateIn .b).phase ≠ .a := by decide

/-- Not in phase B; no buffer; the null buffer; an overrun under each policy; the last sample; the last byte of memory and
the first address past it. -/
theorem witness_LoadSampleEffect : (stateIn .b).faults = [] ∧ (stateIn .b).phase = .b ∧ (stateIn .c).phase ≠ .b ∧
    { stateIn .b with bufBase := none }.bufBase = none ∧ { stateIn .b with bufLen := none }.bufLen = none ∧
    ((stateIn .b).bufBase = some 0x100 ∧ (stateIn .b).bufLen = some 3) ∧ 0 = (stateIn .b).cfg.nullAddr ∧
    0x100 ≠ (stateIn .b).cfg.nullAddr ∧ 3 ≤ { stateIn .b with cursor := 3 }.cursor ∧
    (∀ o : List OverrunPolicy, o = [.fault, .wrap, .autostop, .unchecked] →
      ∀ p ∈ o, (under p (stateIn .b)).cfg.overrunPolicy = p) ∧
    { stateIn .b with cursor := 2 }.cursor < 3 ∧ 0x1FF + 0 < (stateIn .b).cfg.memSize ∧ (stateIn .b).cfg.memSize ≤ 0x1FF + 1 := by
  refine ⟨rfl, rfl, by decide, rfl, rfl, ⟨rfl, rfl⟩, rfl, by decide, by decide, fun o _ p _ => rfl, by decide, by decide,
    by decide⟩

theorem witness_WriteCompareEffect : (stateIn .c).faults = [] ∧ (stateIn .c).phase = .c ∧ (stateIn .d).phase ≠ .c ∧
    (stateIn .c).sampleTmp = none ∧ { stateIn .c with sampleTmp := some 0xFF }.sampleTmp = some 0xFF := by decide

/-- Not in phase D; every policy; a length held. -/
theorem witness_IncrementCursorEffect : (stateIn .d).faults = [] ∧ (stateIn .d).phase = .d ∧ (stateIn .e).phase ≠ .d ∧
    (under .fault (stateIn .d)).cfg.overrunPolicy ≠ .wrap ∧ (under .unchecked (stateIn .d)).cfg.overrunPolicy ≠ .wrap ∧
    (under .autostop (stateIn .d)).cfg.overrunPolicy ≠ .wrap ∧ (under .wrap (stateIn .d)).cfg.overrunPolicy = .wrap ∧
    (under .wrap (stateIn .d)).bufLen = some 3 := by decide

theorem witness_IncrementCursorWithoutLength : let s := { under .wrap (stateIn .d) with bufLen := none }
    s.faults = [] ∧ s.phase = .d ∧ s.cfg.overrunPolicy = .wrap ∧ s.bufLen = none := by decide

theorem witness_ClearOverflowEffect : (stateIn .e).faults = [] ∧ (stateIn .e).phase = .e ∧ (stateIn .d).phase ≠ .e := by decide

theorem witness_InterruptReturn : (stateIn .ret).faults = [] ∧ (stateIn .ret).phase = .ret ∧ (stateIn .e).phase ≠ .ret := by decide

/-- A step that moves the phase, one that skips to E, one that raises, and one of another agent. -/
theorem witness_PhaseTransitions : (∃ t, exec .isrEntry ready = .next t ∧ t.faults = []) ∧
    (∃ t, exec .loadSample (under .autostop { stateIn .b with cursor := 3 }) = .next t ∧ t.faults = [] ∧ t.phase = .e) ∧
    (∃ t, exec .writeCmp (stateIn .c) = .next t ∧ t.faults ≠ []) ∧ ∃ t, exec .pwmClk ready = .next t ∧ t.faults = [] :=
  ⟨⟨_, rfl, rfl⟩, ⟨_, rfl, rfl, rfl⟩, ⟨_, rfl, by decide⟩, ⟨_, rfl, rfl⟩⟩

/-- The default state is a state of the invariant, at any instant of the handler. -/
theorem fits_at (p : Phase) : (stateIn p).Fits := by
  constructor <;> simp [stateIn, boot, State.boot] <;> decide

theorem witness_HandlerRunCompletes :
    ready.Fits ∧ ready.faults = [] ∧ ready.phase = .idle ∧ ready.gie = true ∧ ready.scOvfie = true ∧ ready.scOvf = true ∧
    bufferHeld ready = some (0x100, 3) ∧ 0x100 ≠ ready.cfg.nullAddr ∧ ready.cursor < 3 ∧
    0x100 + ready.cursor < ready.cfg.memSize := by
  refine ⟨?_, by decide⟩
  obtain ⟨h1, h2, h3, h4, h5, h6, h7, h8⟩ := fits_at .idle
  exact ⟨h1, h2, h3, h4, h5, h6, h7, h8⟩

/-- The seven steps with both counters stepping between them. -/
def interleaved : List Instr :=
  [.pwmClk, .isrEntry, .scClk, .diagToggle, .loadSample, .pwmClk, .writeCmp, .incCursor, .clearOvf, .pwmClk, .reti]

theorem witness_HandlerRunPlaysOneSample :
    ready.Fits ∧ bufferHeld ready = some (0x100, 3) ∧ 0x100 ≠ ready.cfg.nullAddr ∧ ready.cursor < 3 ∧
    0x100 + ready.cursor < ready.cfg.memSize ∧ (∀ i ∈ interleaved, i.agent ≠ .h) ∧
    interleaved.filter (fun i => decide (i.agent = .ts)) = Pseudo.tick.expand ready.cfg ∧
    (∃ t, execAll interleaved ready = .next t ∧ t.faults = []) ∧
    interleaved = interleaved.take 8 ++ .clearOvf :: [.pwmClk, .reti] ∧ Instr.scClk ∉ [Instr.pwmClk, .reti] := by
  refine ⟨witness_HandlerRunCompletes.1, by decide, by decide, by decide, by decide, by decide, by decide, ⟨_, rfl, rfl⟩,
    by decide, by decide⟩

theorem witness_AutoStopRun : let s := under .autostop { ready with cursor := 3 }
    s.faults = [] ∧ s.phase = .idle ∧ s.gie = true ∧ s.scOvfie = true ∧ s.scOvf = true ∧ s.pwEn = true ∧
    s.cfg.overrunPolicy = .autostop ∧ bufferHeld s = some (0x100, 3) ∧ 0x100 ≠ s.cfg.nullAddr ∧ 3 ≤ s.cursor := by decide

/-- Not enabled; the mode not modelled; the end of a period and the count before it. -/
theorem witness_PwmCount : boot.faults = [] ∧ boot.pwEn = false ∧ (stateIn .idle).faults = [] ∧ (stateIn .idle).pwEn = true ∧
    { stateIn .idle with pwMode := .other }.pwMode = .other ∧ (stateIn .idle).pwMode = .pwm8 ∧
    { stateIn .idle with pwCnt := 255 }.pwPer.toNat ≤ { stateIn .idle with pwCnt := 255 }.pwCnt.toNat ∧
    { stateIn .idle with pwCnt := 254 }.pwCnt.toNat < { stateIn .idle with pwCnt := 254 }.pwPer.toNat := by decide

theorem witness_CompareLatch :
    (∃ t, exec .pwmClk { stateIn .idle with pwCnt := 255, pwCmp := 0x40 } = .next t ∧ t.pwCmpAct ≠ 0x80) ∧
    ∃ t, exec (.start 0x100 3) boot = .next t ∧ t.pwCmpAct ≠ boot.pwCmpAct := ⟨⟨_, rfl, by decide⟩, ⟨_, rfl, by decide⟩⟩

theorem witness_AudioPinLevel : boot.outDir = false ∧ ready.outDir = true ∧
    (ready.pwEn = true ∧ ready.pwOuten = true ∧ ready.route = true) ∧
    ¬ ({ ready with pwEn := false }.pwEn = true ∧ ready.pwOuten = true ∧ ready.route = true) ∧
    ¬ (ready.pwEn = true ∧ { ready with pwOuten := false }.pwOuten = true ∧ ready.route = true) ∧
    ¬ (ready.pwEn = true ∧ ready.pwOuten = true ∧ { ready with route := false }.route = true) := by decide

theorem witness_DutyCycle : ∀ v ∈ [(0 : Byte), 1, 128, 255], let s := { stateIn .idle with pwCmpAct := v }
    s.faults = [] ∧ s.pwEn = true ∧ s.pwMode = .pwm8 ∧ s.pwPer = 255 ∧ s.pwCnt = 0 ∧ s.outDir = true ∧
      s.pwOuten = true ∧ s.route = true := by decide

theorem witness_CompareWriteLatency : ∀ n ∈ [(0 : Byte), 10, 255],
    let s := { stateIn .c with sampleTmp := some 0x20, pwCnt := n }
    s.faults = [] ∧ s.phase = .c ∧ s.sampleTmp = some 0x20 ∧ s.pwEn = true ∧ s.pwMode = .pwm8 ∧ s.pwPer = 255 := by
  decide

theorem witness_StopSilencesPin : ∃ t, exec .stop ready = .next t ∧ ready.pwEn = true ∧ t.pwEn = false := ⟨_, rfl, rfl, rfl⟩

theorem witness_CompareWriters :
    (∃ t, exec .writeCmp { stateIn .c with sampleTmp := some 0x10 } = .next t ∧ t.pwCmp ≠ 0x80) ∧
    ∃ t, exec (.start 0x100 3) boot = .next t ∧ t.pwCmp ≠ boot.pwCmp := ⟨⟨_, rfl, by decide⟩, ⟨_, rfl, by decide⟩⟩

/-- Each operation takes a next state somewhere. -/
theorem witness_FieldWriters :
    (∃ t, exec (.start 0x100 3) boot = .next t) ∧ (∃ t, exec .stop boot = .next t) ∧
    (∃ t, exec .scClk ready = .next t) ∧ (∃ t, exec .pwmClk ready = .next t) ∧ (∃ t, exec .isrEntry ready = .next t) ∧
    (∃ t, exec .diagToggle (stateIn .a) = .next t) ∧ (∃ t, exec .loadSample (stateIn .b) = .next t) ∧
    (∃ t, exec .writeCmp (stateIn .c) = .next t) ∧ (∃ t, exec .incCursor (stateIn .d) = .next t) ∧
    (∃ t, exec .clearOvf (stateIn .e) = .next t) ∧ ∃ t, exec .reti (stateIn .ret) = .next t :=
  ⟨⟨_, rfl⟩, ⟨_, rfl⟩, ⟨_, rfl⟩, ⟨_, rfl⟩, ⟨_, rfl⟩, ⟨_, rfl⟩, ⟨_, rfl⟩, ⟨_, rfl⟩, ⟨_, rfl⟩, ⟨_, rfl⟩, ⟨_, rfl⟩⟩

/-- The flag set and cleared, the enable set and cleared both ways, the mask set both ways and cleared. -/
theorem witness_InterruptControls :
    (∃ t, exec .scClk { stateIn .idle with scCnt := 3 } = .next t ∧ (stateIn .idle).scOvf = false ∧ t.scOvf = true) ∧
    (∃ t, exec .clearOvf { stateIn .e with scOvf := true } = .next t ∧ t.scOvf = false) ∧
    (∃ t, exec (.start 0x100 3) boot = .next t ∧ boot.scOvfie = false ∧ t.scOvfie = true ∧ boot.gie = false ∧ t.gie = true) ∧
    (∃ t, exec .stop ready = .next t ∧ ready.scOvfie = true ∧ t.scOvfie = false) ∧
    (∃ t, exec .loadSample (under .autostop { stateIn .b with cursor := 3 }) = .next t ∧ (stateIn .b).scOvfie = true ∧
      t.scOvfie = false) ∧
    (∃ t, exec .reti (stateIn .ret) = .next t ∧ (stateIn .ret).gie = false ∧ t.gie = true) ∧
    ∃ t, exec .isrEntry ready = .next t ∧ ready.gie = true ∧ t.gie = false :=
  ⟨⟨_, rfl, rfl, rfl⟩, ⟨_, rfl, rfl⟩, ⟨_, rfl, rfl, rfl, rfl, rfl⟩, ⟨_, rfl, rfl, rfl⟩, ⟨_, rfl, rfl, rfl⟩,
    ⟨_, rfl, rfl, rfl⟩, ⟨_, rfl, rfl, rfl⟩⟩

theorem witness_EventsEmitted : (∃ t, exec .writeCmp (stateIn .c) = .next t ∧ t.faults ≠ []) ∧
    ∃ t, exec .stop boot = .next t ∧ t.faults = [] := ⟨⟨_, rfl, by decide⟩, ⟨_, rfl, rfl⟩⟩

/-- Each fault code is raised somewhere. -/
theorem witness_FaultTable :
    after .loadSample { stateIn .b with cursor := 3 } State.faults = some [⟨.overrun, some 3⟩] ∧
    after .loadSample { stateIn .b with bufBase := some 0 } State.faults = some [⟨.nullBuffer, some 0⟩] ∧
    after .loadSample { stateIn .b with bufBase := none } State.faults = some [⟨.noBuffer, none⟩] ∧
    after .loadSample { stateIn .b with bufBase := some 0x200 } State.faults = some [⟨.memRange, some 0x200⟩] ∧
    after (.start 0x10000 0) boot State.faults = some [⟨.illegalCommand, some 0x0100000000010000⟩] ∧
    after .writeCmp (stateIn .c) State.faults = some [⟨.unwrittenRead, none⟩] ∧
    after .scClk { stateIn .idle with scMode := .other } State.faults = some [⟨.unmodelledConfig, some 0⟩] ∧
    after .pwmClk { stateIn .idle with pwMode := .other } State.faults = some [⟨.unmodelledConfig, some 1⟩] := by decide

theorem witness_OnlyHostAfterReset : Instr.scClk.agent ≠ .h ∧ Instr.pwmClk.agent ≠ .h ∧ Instr.isrEntry.agent ≠ .h ∧
    Instr.reti.agent ≠ .h := by decide

/-- Step (c) of the first tick of a playback, about to be taken. -/
def playing : State :=
  queued [⟨.block, 0x9300000000000000#64⟩]
    { stateIn .c with scOvf := true, sampleTmp := some 0x10, history := [.evStart 0x100 3, .evTick] }

theorem playing_inv : playing.Inv := by
  obtain ⟨h1, h2, h3, h4, h5, h6, h7, h8⟩ := fits_at .c
  refine ⟨⟨h1, h2, h3, h4, h5, h6, h7, h8⟩, ?_, ?_, ?_⟩ <;>
    constructor <;> simp [playing, queued, stateIn, boot, State.boot, cfg]

theorem witness_StepKeepsInvariant : playing.Inv ∧ ∃ t, step playing = .next t := ⟨playing_inv, _, rfl⟩

theorem playing_plays : playing.Plays := by
  constructor <;>
    simp [playing, queued, stateIn, boot, State.boot, cfg, played, playedStep, playedBeforeCursor, bufferHeld]
  decide

theorem witness_StepKeepsPlaybackOrder : playing.cfg.overrunPolicy ≠ .unchecked ∧ playing.Inv ∧ playing.Plays ∧
    ∃ t, step playing = .next t := ⟨by decide, playing_inv, playing_plays, _, rfl⟩

/-- The words of a run from reset to the first compare write, with an overflow on every count. -/
def firstTick : List Turn :=
  turnsOf [.start 0x100 3, .scClk, .isrEntry, .diagToggle, .loadSample, .writeCmp]

/-- The launch that runs them. -/
def launch : State := State.launched { cfg with scPerVal := 0 } mem firstTick 0

/-- The state after some steps, if each takes one. -/
def stepsFrom : Nat → State → Option State
  | 0, s => some s
  | n + 1, s => (nextState (step s)).bind (stepsFrom n)

theorem reachable_stepsFrom {n : Nat} {s t : State} (hs : Reachable s) (h : stepsFrom n s = some t) : Reachable t := by
  induction n generalizing s with
  | zero => simp only [stepsFrom, Option.some.injEq] at h; exact h ▸ hs
  | succ n ih =>
    obtain ⟨u, hu, h'⟩ := Option.bind_eq_some_iff.mp h
    exact ih (.step hs (nextState_eq_some.mp hu)) h'

theorem reachable_launch : Reachable launch := .launch _ _ _ _ (by decide) (by decide) (by decide)

theorem witness_RunsPlayBufferInOrder : ∃ s, Reachable s ∧ s.cfg.overrunPolicy ≠ .unchecked ∧
    bufferHeld s = some (0x100, 3) ∧ (played s)[0]? = some 0x10 ∧ s.cfg.overrunPolicy ≠ .wrap := by
  obtain ⟨s, hs⟩ : ∃ s, stepsFrom 6 launch = some s := ⟨_, rfl⟩
  refine ⟨s, reachable_stepsFrom reachable_launch hs, ?_⟩
  have : (stepsFrom 6 launch).map (fun t => (t.cfg.overrunPolicy, bufferHeld t, (played t)[0]?)) =
      some (.fault, some (0x100, 3), some 0x10) := by decide
  rw [hs] at this
  simp_all

/-- Step (b) of a tick under `wrap` with an empty buffer. -/
def emptyTick : State := under .wrap { stateIn .b with bufLen := some 0, scOvf := true }

/-- Under `wrap` OVERRUN is raised in a state of the invariant. -/
theorem witness_FaultTable_wrap : emptyTick.Inv ∧ after .loadSample emptyTick State.faults = some [⟨.overrun, some 0⟩] := by
  obtain ⟨h1, h2, h3, h4, h5, h6, h7, h8⟩ := fits_at .b
  refine ⟨⟨⟨h1, h2, h3, h4, ?_, h6, h7, h8⟩, ?_, ?_, ?_⟩, by decide⟩
  · intro n hn
    obtain rfl : 0 = n := Option.some.inj hn
    decide
  all_goals constructor <;> simp [emptyTick, under, stateIn, boot, State.boot, cfg]

/-- A run whose host issues a reserved code: a fault is recorded. -/
theorem witness_UnreachableStates : ∃ s, Reachable s ∧ s.faults ≠ [] :=
  ⟨_, .step (.launch cfg mem [⟨.host, 0⟩] 0 (by decide) (by decide) (by decide)) rfl, by decide⟩

/-- A run under `wrap` with an empty buffer: OVERRUN is recorded at the first tick. -/
theorem witness_UnreachableStates_wrap :
    ∃ s, Reachable s ∧ s.cfg.overrunPolicy = .wrap ∧ ∃ r ∈ s.faults, r.code = .overrun := by
  let start := State.launched { cfg with scPerVal := 0, overrunPolicy := .wrap } mem
    (turnsOf [.start 0x100 0, .scClk, .isrEntry, .diagToggle, .loadSample]) 0
  obtain ⟨s, hs⟩ : ∃ s, stepsFrom 5 start = some s := ⟨_, rfl⟩
  refine ⟨s, reachable_stepsFrom (.launch _ _ _ _ (by decide) (by decide) (by decide)) hs, ?_⟩
  have : (stepsFrom 5 start).map (fun t => (t.cfg.overrunPolicy, t.faults)) = some (.wrap, [⟨.overrun, some 0⟩]) := by decide
  rw [hs] at this
  simp_all

/-! ### A fair run in which the interrupt is taken: one handler run, then STOP for ever -/

/-- The interrupt can be taken and both counters are off. -/
def quiet : State := { ready with scEn := false, pwEn := false }

/-- STOP, issued by the host. -/
def stopTurn : Turn := Turn.ofInstr .stop

def fairMove (n : Nat) : Turn := ((turnsOf (Pseudo.tick.expand cfg))[n]?).getD stopTurn

def fairState : Nat → State
  | 0 => quiet
  | n + 1 => (nextState (takeTurn (fairMove n) (fairState n))).getD quiet

/-- Only the host and the sequencer can move, and after the first STOP only the host. -/
def Resting (stopped : Bool) (s : State) : Prop :=
  s.faults = [] ∧ s.phase = .idle ∧ s.scEn = false ∧ s.pwEn = false ∧ (stopped = true → s.scOvfie = false)

theorem stop_resting {b : Bool} {s : State} (h : Resting b s) :
    takeTurn stopTurn s = .next (stopPlayback s) ∧ Resting true (stopPlayback s) := by
  obtain ⟨h1, h2, h3, h4, -⟩ := h
  exact ⟨execStop_next.mpr ⟨h1, h2, rfl⟩, h1, h2, h3, rfl, fun _ => rfl⟩

theorem fairMove_late (k : Nat) : fairMove (8 + k) = stopTurn := by
  have h : (turnsOf (Pseudo.tick.expand cfg))[8 + k]? = none :=
    List.getElem?_eq_none (by simp [turnsOf, Pseudo.expand]; omega)
  rw [fairMove, h]
  rfl

theorem fair_resting (k : Nat) : Resting true (fairState (8 + k)) := by
  induction k with
  | zero => exact ⟨rfl, rfl, rfl, rfl, fun _ => rfl⟩
  | succ k ih =>
    show Resting true ((nextState (takeTurn (fairMove (8 + k)) (fairState (8 + k)))).getD quiet)
    rw [fairMove_late, (stop_resting ih).1]
    exact (stop_resting ih).2

theorem fair_taken (n : Nat) : takeTurn (fairMove n) (fairState n) = .next (fairState (n + 1)) := by
  rcases Nat.lt_or_ge n 8 with h | h
  · have : n = 0 ∨ n = 1 ∨ n = 2 ∨ n = 3 ∨ n = 4 ∨ n = 5 ∨ n = 6 ∨ n = 7 := by omega
    rcases this with rfl | rfl | rfl | rfl | rfl | rfl | rfl | rfl <;> rfl
  · obtain ⟨k, rfl⟩ := Nat.exists_eq_add_of_le h
    show _ = Host.Outcome.next ((nextState (takeTurn (fairMove (8 + k)) (fairState (8 + k)))).getD quiet)
    rw [fairMove_late, (stop_resting (fair_resting k)).1]
    rfl

def fairRun : Run where
  state := fairState
  move := fairMove
  taken := fair_taken

theorem resting_not_enabled {s : State} (h : Resting true s) {a : Agent} (ha : a ≠ .h) : ¬ Enabled a s := by
  rintro ⟨⟨issuer, w⟩, u, hag, hu⟩
  obtain ⟨h1, h2, h3, h4, h5⟩ := h
  cases issuer with
  | host => exact ha (by simpa [turnAgent] using hag.symm)
  | block =>
    rcases takeTurn_next hu with ⟨i, hd, hi⟩ | ⟨h, -⟩
    · simp only [turnAgent] at hag hd
      rw [hd] at hag
      cases i with
      | start | stop => exact ha (by simpa [Instr.agent] using hag.symm)
      | scClk => have := execScClk_next.mp hi; simp_all
      | pwmClk => have := execPwmClk_next.mp hi; simp_all
      | isrEntry => have := execIsrEntry_next.mp hi; simp_all
      | diagToggle => have := execDiagToggle_next.mp hi; simp_all
      | loadSample => have := execLoadSample_next.mp hi; simp_all
      | writeCmp => have := execWriteCmp_next.mp hi; simp_all
      | incCursor => have := execIncCursor_next.mp hi; simp_all
      | clearOvf => have := execClearOvf_next.mp hi; simp_all
      | reti => have := execReti_next.mp hi; simp_all
    · cases h

theorem fairRun_weaklyFair : fairRun.WeaklyFair := by
  intro a n h
  by_cases ha : a = .h
  · refine ⟨8 + n, by omega, ?_⟩
    have hm : fairRun.move (8 + n) = stopTurn := fairMove_late n
    rw [hm, ha]
    rfl
  · exact absurd (h (8 + n) (by omega)) (resting_not_enabled (fair_resting n) ha)

theorem witness_FairRunsTakeInterrupt : fairRun.FairTo .ts ∧ (fairRun.state 0).phase = .idle ∧
    (fairRun.state 0).gie = true ∧ (fairRun.state 0).scOvfie = true ∧ (fairRun.state 0).scOvf = true :=
  ⟨fairRun_weaklyFair .ts, rfl, rfl, rfl, rfl⟩

end Sys2Proof.Machine.Tests
end

/-! PROOFS. Sample memory: the byte order of a serialised step word, the read primitive, and that no step writes memory
(20_memory.md R61 to R64). -/

namespace Sys2Proof

/-- Byte `k` of a serialised word is its bits `8k+7` to `8k` (20_memory.md R64). -/
theorem bytesOfWord_eq_map (w : Word) : bytesOfWord w = (List.range 8).map fun k => w.extractLsb' (8 * k) 8 := rfl

/-- The byte above the low `n` bits of a word extends them to its low `8 + n` bits. -/
theorem byte_append_low (w : Word) (n : Nat) :
    w.extractLsb' n 8 ++ w.extractLsb' 0 n = w.extractLsb' 0 (8 + n) := by
  rw [BitVec.extractLsb'_append_extractLsb'_eq_extractLsb' (Nat.zero_add n).symm]

/-- The bytes of a word, read back, give the word and leave the rest of the list. -/
theorem wordOfBytes_bytesOfWord (w : Word) (rest : List Byte) :
    wordOfBytes (bytesOfWord w ++ rest) = some (w, rest) := by
  have join := byte_append_low w
  have h : w.extractLsb' 56 8 ++ (w.extractLsb' 48 8 ++ (w.extractLsb' 40 8 ++ (w.extractLsb' 32 8 ++
      (w.extractLsb' 24 8 ++ (w.extractLsb' 16 8 ++ (w.extractLsb' 8 8 ++ w.extractLsb' 0 8)))))) = w := by
    rw [join 8, join 16, join 24, join 32, join 40, join 48, join 56]
    exact BitVec.extractLsb'_eq_self
  exact congrArg (fun v => some (v, rest)) h

/-- Settles O8: a word is the concatenation of its bytes, and byte `k` is the field at bit `8k`. -/
theorem bytesLittleEndian : Obligations.BytesLittleEndian := by
  intro w rest
  refine ⟨wordOfBytes_bytesOfWord w rest, fun k hk => ?_⟩
  simp [bytesOfWord_eq_map, hk, BitVec.extractLsb'_toNat, Nat.shiftRight_eq_div_pow]

end Sys2Proof

namespace Sys2Proof.Machine

/-- Settles O13, from the model's equation for the read primitive. -/
theorem memReadPrimitive : Obligations.MemReadPrimitive := by
  intro s addr
  rw [memRead_eq]
  exact ⟨fun h => if_pos h, fun h => if_neg (Nat.not_lt.mpr h)⟩

/-- `t` has the launch parameters and the sample memory of `s`, which 00_scope.md R7 and 20_memory.md R61 fix for a whole
run. -/
def SameLaunch (s t : State) : Prop := t.cfg = s.cfg ∧ t.mem = s.mem

theorem scCount_sameLaunch (s : State) : SameLaunch s (scCount s) := by
  unfold scCount
  split <;> exact ⟨rfl, rfl⟩

theorem pwCount_sameLaunch (s : State) : SameLaunch s (pwCount s) := by
  unfold pwCount
  split <;> exact ⟨rfl, rfl⟩

theorem recordFault_sameLaunch (r : FaultRecord) (s : State) : SameLaunch s (recordFault r s) := ⟨rfl, rfl⟩

theorem loadSample_sameLaunch {s t : State} (h : loadSample s = .next t) : SameLaunch s t := by
  obtain ⟨-, rfl⟩ | ⟨_, -, rfl⟩ | ⟨_, _, -, -, -, ⟨-, rfl⟩ | ⟨-, rfl⟩ | ⟨-, rfl⟩⟩ | ⟨_, _, -, -, -, rfl⟩ :=
    loadSample_next.mp h
  case inr.inr.inr => split <;> exact ⟨rfl, rfl⟩
  all_goals exact ⟨rfl, rfl⟩

/-- No operation writes sample memory or a launch parameter (20_memory.md R61, R63). -/
theorem exec_sameLaunch {i : Instr} {s t : State} (h : exec i s = .next t) : SameLaunch s t := by
  cases i with
  | start base len =>
    obtain ⟨-, -, rfl⟩ := execStart_next.mp h
    split <;> exact ⟨rfl, rfl⟩
  | stop =>
    obtain ⟨-, -, rfl⟩ := execStop_next.mp h
    exact ⟨rfl, rfl⟩
  | scClk =>
    obtain ⟨-, -, rfl⟩ := execScClk_next.mp h
    split
    · exact scCount_sameLaunch s
    · exact recordFault_sameLaunch _ s
  | pwmClk =>
    obtain ⟨-, -, rfl⟩ := execPwmClk_next.mp h
    split
    · exact pwCount_sameLaunch s
    · exact recordFault_sameLaunch _ s
  | isrEntry =>
    obtain ⟨-, -, rfl⟩ := execIsrEntry_next.mp h
    exact ⟨rfl, rfl⟩
  | diagToggle =>
    obtain ⟨-, -, rfl⟩ := execDiagToggle_next.mp h
    exact ⟨rfl, rfl⟩
  | loadSample =>
    obtain ⟨-, -, hload⟩ := execLoadSample_next.mp h
    exact loadSample_sameLaunch hload
  | writeCmp =>
    obtain ⟨-, -, ⟨-, rfl⟩ | ⟨v, -, rfl⟩⟩ := execWriteCmp_next.mp h <;> exact ⟨rfl, rfl⟩
  | incCursor =>
    obtain ⟨-, -, rfl⟩ := execIncCursor_next.mp h
    exact ⟨rfl, rfl⟩
  | clearOvf =>
    obtain ⟨-, -, rfl⟩ := execClearOvf_next.mp h
    exact ⟨rfl, rfl⟩
  | reti =>
    obtain ⟨-, -, rfl⟩ := execReti_next.mp h
    exact ⟨rfl, rfl⟩

theorem execIllegal_sameLaunch {w : Word} {s t : State} (h : execIllegal w s = .next t) : SameLaunch s t := by
  obtain ⟨-, -, rfl⟩ := execIllegal_next.mp h
  exact recordFault_sameLaunch _ s

theorem SameLaunch.trans {s t u : State} (hst : SameLaunch s t) (htu : SameLaunch t u) : SameLaunch s u :=
  ⟨htu.1.trans hst.1, htu.2.trans hst.2⟩

/-- No step of any agent, scheduled or drawn, writes sample memory or a launch parameter. -/
theorem step_sameLaunch {s t : State} (h : step s = .next t) : SameLaunch s t :=
  step_keeps (P := SameLaunch s) (fun _ _ _ hs => hs) (fun _ _ _ hs hi => hs.trans (exec_sameLaunch hi))
    (fun _ _ _ hs hi => hs.trans (execIllegal_sameLaunch hi)) ⟨rfl, rfl⟩ h

/-- Both reads are functions of what a step keeps. -/
theorem memRead_of_sameLaunch {s t : State} (h : SameLaunch s t) (addr : Nat) : memRead t addr = memRead s addr := by
  obtain ⟨hcfg, hmem⟩ := h
  rw [memRead_eq, memRead_eq, hcfg, hmem]

/-- Settles O12: a step keeps the launch parameters and sample memory itself, and so every read of it. -/
theorem memoryNeverWritten : Obligations.MemoryNeverWritten := by
  intro s t h
  obtain ⟨hcfg, hmem⟩ := step_sameLaunch h
  exact ⟨hcfg, fun addr => ⟨by rw [hmem], memRead_of_sameLaunch ⟨hcfg, hmem⟩ addr⟩⟩

end Sys2Proof.Machine

/-! PROOFS. Encoding: the fields of a word as numbers, what the decoder answers, the opcode map, and the words the host
issues that are no command (30_encoding.md R80 to R86). -/

namespace Sys2Proof

theorem opc_toNat (w : Word) : (Word.opc w).toNat = w.toNat / 2 ^ 56 := by
  rw [Word.opc, BitVec.extractLsb'_toNat, Nat.shiftRight_eq_div_pow]
  omega

theorem len_toNat (w : Word) : (Word.len w).toNat = w.toNat / 2 ^ 32 % 2 ^ 24 := by
  rw [Word.len, BitVec.extractLsb'_toNat, Nat.shiftRight_eq_div_pow]

theorem base_toNat (w : Word) : (Word.base w).toNat = w.toNat % 2 ^ 32 := by
  rw [Word.base, BitVec.extractLsb'_toNat, Nat.shiftRight_zero]

theorem opc_eq_iff (w : Word) (c : BitVec 8) : Word.opc w = c ↔ w.toNat / 2 ^ 56 = c.toNat := by
  rw [← opc_toNat, BitVec.toNat_inj]

theorem operandBits_eq_zero_iff (w : Word) : Word.operandBits w = 0 ↔ w.toNat % 2 ^ 56 = 0 := by
  rw [← BitVec.toNat_inj, Word.operandBits, BitVec.extractLsb'_toNat, Nat.shiftRight_zero]
  rfl

/-- Everything the decoder accepts: START's code with both fields in range (R82), or another code the map names with no
operand bit set (R83). -/
theorem decode_ok {addrW lenW : Nat} {w : Word} {i : Instr} :
    decode addrW lenW w = .ok i ↔
      (w.toNat / 2 ^ 56 = 0x01 ∧ w.toNat % 2 ^ 32 < 2 ^ addrW ∧ w.toNat / 2 ^ 32 % 2 ^ 24 < 2 ^ lenW ∧
        i = .start (Word.base w) (Word.len w)) ∨
      (w.toNat / 2 ^ 56 ≠ 0x01 ∧ w.toNat % 2 ^ 56 = 0 ∧ labelOf (Word.opc w) = some i) := by
  have hcode : w.toNat / 2 ^ 56 = 0x01 ↔ Word.opc w = 0x01#8 := (opc_eq_iff w 0x01#8).symm
  rw [ne_eq, hcode, ← base_toNat, ← len_toNat, ← operandBits_eq_zero_iff]
  by_cases hstart : Word.opc w = 0x01#8
  · rw [decode_start hstart, decodeStart]
    split_ifs <;> simp [*, eq_comm]
  · rw [decode_label hstart, decodeLabel]
    cases labelOf (Word.opc w) with
    | none => simp [hstart]
    | some j =>
      split_ifs with hbits
      · simp [hstart, hbits]
      · simpa [hstart] using fun h => absurd h hbits

/-- With no operand bit set, a code other than START's decides alone what the decoder answers. -/
theorem decode_of_operandBits_zero {addrW lenW : Nat} {w : Word} (hcode : Word.opc w ≠ 0x01#8)
    (hbits : Word.operandBits w = 0) :
    decode addrW lenW w = (labelOf (Word.opc w)).elim (.error .reservedOpcode) .ok := by
  rw [decode_label hcode, decodeLabel]
  cases labelOf (Word.opc w) with
  | none => rfl
  | some i => exact if_pos hbits

/-- START's code alone is START of the empty buffer at address 0, at every pair of widths. -/
theorem decode_start_zero {addrW lenW : Nat} {w : Word} (hcode : Word.opc w = 0x01#8) (hbits : Word.operandBits w = 0) :
    decode addrW lenW w = .ok (.start 0 0) := by
  obtain ⟨hlen, hbase⟩ := (operandBits_eq_zero w).mp hbits
  simp [decode_start hcode, decodeStart, hlen, hbase]

/-- The one operation without operands that is a host command is STOP (30_encoding.md R81, R84). -/
theorem labelOf_hostCommand {c : BitVec 8} {i : Instr} (h : labelOf c = some i) (hi : i.isHostCommand = true) :
    i = .stop := by
  obtain ⟨hopc, -, hne⟩ := labelOf_some h
  cases i with
  | start _ _ => exact absurd hopc.symm hne
  | stop => rfl
  | _ => cases hi

/-- The two words that are host commands: STOP's and a START in range (30_encoding.md R84). -/
theorem decode_hostCommand {addrW lenW : Nat} {w : Word} {i : Instr} (h : decode addrW lenW w = .ok i)
    (hi : i.isHostCommand = true) :
    (w.toNat / 2 ^ 56 = 0x02 ∧ w.toNat % 2 ^ 56 = 0) ∨
      (w.toNat / 2 ^ 56 = 0x01 ∧ w.toNat % 2 ^ 32 < 2 ^ addrW ∧ w.toNat / 2 ^ 32 % 2 ^ 24 < 2 ^ lenW) := by
  obtain ⟨hcode, hbase, hlen, -⟩ | ⟨-, hbits, hlabel⟩ := decode_ok.mp h
  · exact .inr ⟨hcode, hbase, hlen⟩
  · cases labelOf_hostCommand hlabel hi
    exact .inl ⟨(opc_eq_iff w 0x02#8).mp (labelOf_some hlabel).1.symm, hbits⟩

/-- A word with another code than START's and an operand bit set names no operation (30_encoding.md R83). -/
theorem decode_operandBits_ne_ok {addrW lenW : Nat} {w : Word} (hcode : w.toNat / 2 ^ 56 ≠ 0x01)
    (hbits : w.toNat % 2 ^ 56 ≠ 0) (i : Instr) : decode addrW lenW w ≠ .ok i := fun h =>
  (decode_ok.mp h).elim (fun hstart => hcode hstart.1) fun hlabel => hbits hlabel.2.1

end Sys2Proof

namespace Sys2Proof.Machine

/-- A word the decoder takes for no host command is an illegal command when the host issues it (30_encoding.md R84, R85). -/
theorem hostTurn_illegal {w : Word} {s : State}
    (h : ∀ i, decodeHere s w = .ok i → i.isHostCommand = false) : hostTurn w s = execIllegal w s := by
  unfold hostTurn
  split
  · exact if_neg (by simp [h _ ‹_›])
  · rfl

/-- A host command runs when the host issues its word (30_encoding.md R84). -/
theorem hostTurn_command {w : Word} {s : State} {i : Instr} (h : decodeHere s w = .ok i)
    (hi : i.isHostCommand = true) : hostTurn w s = exec i s := by
  simp [hostTurn, h, hi]

/-- A word that names no operation is no step label (30_encoding.md R83). -/
theorem blockTurn_refused {w : Word} {s : State} (h : ∀ i, decodeHere s w ≠ .ok i) :
    blockTurn w s = .refused (.notAStepLabel w) := by
  unfold blockTurn
  split
  · exact absurd ‹_› (h _)
  · rfl

/-- With the host not held and no fault recorded, an illegal command leaves exactly its own pair (R85). -/
theorem execIllegal_idle {w : Word} {s : State} (hf : s.faults = []) (hp : s.phase = .idle) :
    execIllegal w s = .next { s with faults := [⟨.illegalCommand, some w.toNat⟩] } :=
  execIllegal_next.mpr ⟨hf, hp, (recordFault_safe hf).symm⟩

/-- A START in range stores the two fields of its word as they are (30_encoding.md R82). -/
theorem hostTurn_start {s : State} {w : Word} (hf : s.faults = []) (hp : s.phase = .idle)
    (hcode : w.toNat / 2 ^ 56 = 0x01) (hbase : w.toNat % 2 ^ 32 < 2 ^ s.cfg.addrW)
    (hlen : w.toNat / 2 ^ 32 % 2 ^ 24 < 2 ^ s.cfg.lenW) :
    hostTurn w s = .next (startPlayback (w.toNat % 2 ^ 32) (w.toNat / 2 ^ 32 % 2 ^ 24) s) := by
  have hdec : decodeHere s w = .ok (.start (Word.base w) (Word.len w)) :=
    decode_ok.mpr (.inl ⟨hcode, hbase, hlen, rfl⟩)
  rw [← base_toNat] at hbase ⊢
  rw [← len_toNat] at hlen ⊢
  refine (hostTurn_command hdec rfl).trans (execStart_next.mpr ⟨hf, hp, ?_⟩)
  simp [Instr.wf, startBase, startLen, wrap_of_lt, hbase, hlen]

end Sys2Proof.Machine

namespace Sys2Proof

open Machine

/-- Settles O3: START's code is one case, and every other code is looked up in the map. -/
theorem opcodeMap : Obligations.OpcodeMap := by
  refine ⟨fun addrW lenW w hbits => ?_, fun _ _ => rfl, rfl, rfl, rfl, rfl, rfl, rfl, rfl, rfl, rfl, rfl⟩
  rw [← operandBits_eq_zero_iff] at hbits
  by_cases hcode : Word.opc w = 0x01#8
  · rw [decode_start_zero hcode hbits, (opc_eq_iff w 0x01#8).mp hcode]
    rfl
  · rw [decode_of_operandBits_zero hcode hbits, labelOf, opc_toNat]
    have hne : w.toNat / 2 ^ 56 ≠ 0x01 := fun h => hcode ((opc_eq_iff w 0x01#8).mpr h)
    generalize w.toNat / 2 ^ 56 = c at hne ⊢
    split
    any_goals rfl
    simp [*]

/-- Settles O6: the two words excluded are the only ones the decoder takes for a host command. -/
theorem illegalCommandFault : Obligations.IllegalCommandFault := by
  intro s w hf hp hstop hstart
  have hnone : ∀ i, decodeHere s w = .ok i → i.isHostCommand = false := fun i hi =>
    Bool.eq_false_iff.mpr fun hcmd => (decode_hostCommand hi hcmd).elim hstop hstart
  exact (hostTurn_illegal hnone).trans (execIllegal_idle hf hp)

/-- Settles O4: in range by what START stores, out of range by O6. -/
theorem startOperands : Obligations.StartOperands := by
  intro s w hf hp hcode
  refine ⟨fun hbase hlen => ⟨_, hostTurn_start hf hp hcode hbase hlen, ?_⟩, fun hout => ?_⟩
  · simp [hf]
  · refine illegalCommandFault s w hf hp (fun ⟨hstop, _⟩ => ?_) fun ⟨_, hbase, hlen⟩ => ?_
    · omega
    · exact hout.elim hbase.not_ge hlen.not_ge

/-- Settles O5: such a word names no operation, so it is neither a host command nor a step label. -/
theorem operandFreeWords : Obligations.OperandFreeWords := by
  intro s w hcode hbits
  refine ⟨fun hf hp => ?_, blockTurn_refused (decode_operandBits_ne_ok hcode hbits)⟩
  exact illegalCommandFault s w hf hp (fun hstop => hbits hstop.2) fun hstart => hcode hstart.1

end Sys2Proof

/-! PROOFS. The tick sequencer's one-register handler steps: DIAG_TOGGLE, WRITE_CMP, INC_CURSOR and CLEAR_OVF
(41_sample_clock.md R106 and R108 to R110). -/

namespace Sys2Proof.Machine

/-- Out of its own phase a handler step is not enabled (41_sample_clock.md R106 to R111). -/
theorem inPhase_disabled {p : Phase} {i : Instr} {s : State} {act : Result} (hf : s.faults = []) (hp : s.phase ≠ p) :
    inPhase p i s act = .refused (.notEnabled i) :=
  guarded_disabled hf (decide_eq_false hp)

/-- A free value is drawn for the cursor in one case only: under `wrap` with no length held. -/
theorem incDraws_eq_false {s : State} (h : s.cfg.overrunPolicy ≠ .wrap ∨ s.bufLen ≠ none) : incDraws s = false := by
  obtain hpol | hlen := h
  · simp [incDraws, hpol]
  · simp [incDraws, Option.isSome_iff_ne_none.mpr hlen]

/-- Without `wrap` the cursor counts modulo `2^CURSOR_W` (41_sample_clock.md R109). -/
theorem nextCursor_modular {s : State} (h : s.cfg.overrunPolicy ≠ .wrap) :
    nextCursor s = (s.cursor + 1) % 2 ^ s.cfg.cursorW := by
  unfold nextCursor
  split
  · exact absurd ‹_› h
  all_goals rfl

/-- Under `wrap` the cursor goes back to 0 after the last sample of the length held (41_sample_clock.md R109). -/
theorem nextCursor_wrap {s : State} {len : Nat} (hpol : s.cfg.overrunPolicy = .wrap) (hlen : s.bufLen = some len) :
    nextCursor s = if len ≤ s.cursor + 1 then 0 else s.cursor + 1 := by
  simp only [nextCursor, hpol, hlen]

/-- In phase D, with no free value to draw, INC_CURSOR writes the next cursor and the phase alone. -/
theorem execIncCursor_of_no_draw {s : State} (hf : s.faults = []) (hp : s.phase = .d) (hdraw : incDraws s = false) :
    execIncCursor s = .next { s with cursor := nextCursor s, phase := .e } :=
  execIncCursor_next.mpr ⟨hf, hp, by simp [hdraw]⟩

/-- Settles O25: the hook decides whether the pin is inverted, and the phase advances either way. -/
theorem diagnosticToggle : Obligations.DiagnosticToggle := by
  refine ⟨rfl, fun s hf => ⟨fun hp hhook => ?_, fun hp hhook => ?_, inPhase_disabled hf⟩⟩
  all_goals exact execDiagToggle_next.mpr ⟨hf, hp, by simp [hhook]⟩

/-- Settles O27: the two cases are a byte held and none. -/
theorem writeCompareEffect : Obligations.WriteCompareEffect := by
  refine ⟨rfl, fun s hf => ⟨inPhase_disabled hf, fun hp hnone => ?_, fun v hp hheld => ?_⟩⟩
  · exact execWriteCmp_next.mpr ⟨hf, hp, .inl ⟨hnone, (recordFault_safe hf).symm⟩⟩
  · exact execWriteCmp_next.mpr ⟨hf, hp, .inr ⟨v, hheld, rfl⟩⟩

/-- Settles O28: neither case draws a free value, so the next cursor is all that is left to say. -/
theorem incrementCursorEffect : Obligations.IncrementCursorEffect := by
  refine ⟨rfl, fun s hf => ⟨inPhase_disabled hf, fun hp => ⟨fun hpol => ?_, fun hpol len hlen => ?_⟩⟩⟩
  · rw [← nextCursor_modular hpol]
    exact execIncCursor_of_no_draw hf hp (incDraws_eq_false (.inl hpol))
  · rw [← nextCursor_wrap hpol hlen]
    exact execIncCursor_of_no_draw hf hp (incDraws_eq_false (.inr (by simp [hlen])))

/-- Settles O30: in phase E by what CLEAR_OVF leaves, elsewhere by its guard. -/
theorem clearOverflowEffect : Obligations.ClearOverflowEffect :=
  ⟨rfl, fun _ hf => ⟨fun hp => execClearOvf_next.mpr ⟨hf, hp, rfl⟩, inPhase_disabled hf⟩⟩

end Sys2Proof.Machine

/-! PROOFS. The Duty-Cycle Output's registers: which operation writes the enable bit and the compare register, what STOP
leaves of the timer, and the independence of the two counters (42_duty_cycle_output.md R146 to R148). -/

namespace Sys2Proof.Machine

/-- `t` has the PWM enable bit and the written compare value of `s`. -/
def SameCompare (s t : State) : Prop := t.pwEn = s.pwEn ∧ t.pwCmp = s.pwCmp

theorem recordFault_sameCompare (r : FaultRecord) (s : State) : SameCompare s (recordFault r s) := ⟨rfl, rfl⟩

theorem scCount_sameCompare (s : State) : SameCompare s (scCount s) := by
  unfold scCount
  split <;> exact ⟨rfl, rfl⟩

theorem pwCount_periodEnd {s : State} (h : s.pwPer ≤ s.pwCnt) :
    pwCount s = { s with pwCnt := 0, pwCmpAct := s.pwCmp } := if_pos h

theorem pwCount_inPeriod {s : State} (h : ¬ s.pwPer ≤ s.pwCnt) : pwCount s = { s with pwCnt := s.pwCnt + 1 } := if_neg h

/-- A count of the PWM reads the compare register into the latch and writes neither it nor the enable bit (R142, R143). -/
theorem pwCount_sameCompare (s : State) : SameCompare s (pwCount s) := by
  unfold pwCount
  split <;> exact ⟨rfl, rfl⟩

theorem loadSample_sameCompare {s t : State} (h : loadSample s = .next t) : SameCompare s t := by
  obtain ⟨-, rfl⟩ | ⟨_, -, rfl⟩ | ⟨_, _, -, -, -, ⟨-, rfl⟩ | ⟨-, rfl⟩ | ⟨-, rfl⟩⟩ | ⟨_, _, -, -, -, rfl⟩ :=
    loadSample_next.mp h
  case inr.inr.inr => split <;> exact ⟨rfl, rfl⟩
  all_goals exact ⟨rfl, rfl⟩

/-- The three operations that write the enable bit or the compare register, and what they write: every other operation,
and START or WRITE_CMP with a fault, keeps both (R141, R146, R147). -/
theorem exec_sameCompare_or {i : Instr} {s t : State} (h : exec i s = .next t) :
    SameCompare s t ∨
      (mnemonic i = "START" ∧ t.pwEn = true ∧ t.pwCmp = s.cfg.pwInitCmp) ∨
      (i = .stop ∧ t.pwCmp = s.pwCmp) ∨
      (i = .writeCmp ∧ t.pwEn = s.pwEn ∧ s.sampleTmp = some t.pwCmp) := by
  cases i with
  | start base len =>
    obtain ⟨-, -, rfl⟩ := execStart_next.mp h
    split
    · exact .inr (.inl ⟨rfl, rfl, rfl⟩)
    · exact .inl (recordFault_sameCompare _ s)
  | stop =>
    obtain ⟨-, -, rfl⟩ := execStop_next.mp h
    exact .inr (.inr (.inl ⟨rfl, rfl⟩))
  | writeCmp =>
    obtain ⟨-, -, ⟨-, rfl⟩ | ⟨v, hheld, rfl⟩⟩ := execWriteCmp_next.mp h
    · exact .inl (recordFault_sameCompare _ s)
    · exact .inr (.inr (.inr ⟨rfl, rfl, hheld⟩))
  | scClk =>
    obtain ⟨-, -, rfl⟩ := execScClk_next.mp h
    split
    · exact .inl (scCount_sameCompare s)
    · exact .inl (recordFault_sameCompare _ s)
  | pwmClk =>
    obtain ⟨-, -, rfl⟩ := execPwmClk_next.mp h
    split
    · exact .inl (pwCount_sameCompare s)
    · exact .inl (recordFault_sameCompare _ s)
  | loadSample =>
    obtain ⟨-, -, hload⟩ := execLoadSample_next.mp h
    exact .inl (loadSample_sameCompare hload)
  | isrEntry =>
    obtain ⟨-, -, rfl⟩ := execIsrEntry_next.mp h
    exact .inl ⟨rfl, rfl⟩
  | diagToggle =>
    obtain ⟨-, -, rfl⟩ := execDiagToggle_next.mp h
    exact .inl ⟨rfl, rfl⟩
  | incCursor =>
    obtain ⟨-, -, rfl⟩ := execIncCursor_next.mp h
    exact .inl ⟨rfl, rfl⟩
  | clearOvf =>
    obtain ⟨-, -, rfl⟩ := execClearOvf_next.mp h
    exact .inl ⟨rfl, rfl⟩
  | reti =>
    obtain ⟨-, -, rfl⟩ := execReti_next.mp h
    exact .inl ⟨rfl, rfl⟩

/-- Only STOP clears the enable bit of the PWM (R146). -/
theorem eq_stop_of_pwEn_cleared {i : Instr} {s t : State} (h : exec i s = .next t) (hs : s.pwEn = true)
    (ht : t.pwEn = false) : i = .stop := by
  obtain ⟨hkept, -⟩ | ⟨-, hset, -⟩ | ⟨hstop, -⟩ | ⟨-, hkept, -⟩ := exec_sameCompare_or h
  · simp [hkept, hs] at ht
  · simp [hset] at ht
  · exact hstop
  · simp [hkept, hs] at ht

/-- With the PWM disabled the audio pin follows the port level, if it was ever made an output (R144). -/
theorem audioPin_of_pwm_disabled {s : State} (h : s.pwEn = false) :
    audioPin s = if s.outDir then (if s.outLvl then .high else .low) else .hiz := by
  simp [audioPin, pwmDrivesPin, h]

/-- With the PWM disabled its counter does not step (R142). -/
theorem execPwmClk_disabled {s : State} (hf : s.faults = []) (h : s.pwEn = false) :
    exec .pwmClk s = .refused (.notEnabled .pwmClk) :=
  guarded_disabled hf h

/-- Settles O41: STOP alone can clear the enable bit, and the rest reads off what it leaves. -/
theorem stopSilencesPin : Obligations.StopSilencesPin := by
  refine ⟨fun i s t => eq_stop_of_pwEn_cleared, fun s t h => ?_⟩
  obtain ⟨hf, -, rfl⟩ := execStop_next.mp h
  exact ⟨rfl, execPwmClk_disabled hf rfl, rfl, rfl, rfl, audioPin_of_pwm_disabled rfl⟩

/-- Settles O42: of the operations that do not keep the register, STOP keeps it too. -/
theorem compareWriters : Obligations.CompareWriters := by
  intro i s t h hne
  obtain ⟨-, hkept⟩ | ⟨hstart, -, hinit⟩ | ⟨-, hkept⟩ | ⟨hwrite, -, hheld⟩ := exec_sameCompare_or h
  · exact absurd hkept hne
  · exact .inr ⟨hstart, hinit⟩
  · exact absurd hkept hne
  · exact .inl ⟨hwrite, hheld⟩

/-! ### The counters' independence: each counter's count commutes with replacing the other's fields -/

/-- A guarded step commutes with a change of state that keeps the recorded faults and the guard, if its action does. -/
theorem guarded_mapNext {f : State → State} {g : Bool} {r : Refusal} {s s' : State} {act act' : Result}
    (hfaults : s'.faults = s.faults) (hact : act' = mapNext f act) :
    guarded g r s' act' = mapNext f (guarded g r s act) := by
  unfold guarded
  rw [hfaults, hact]
  cases s.faults with
  | nil => cases g <;> rfl
  | cons _ _ => rfl

theorem scCount_withPwmOf (s u : State) : scCount (s.withPwmOf u) = (scCount s).withPwmOf u := by
  have htop : scAtTop (s.withPwmOf u) = scAtTop s := rfl
  unfold scCount
  rw [htop]
  split <;> rfl

theorem pwCount_withSampleClockOf (s u : State) :
    pwCount (s.withSampleClockOf u) = (pwCount s).withSampleClockOf u := by
  by_cases hend : s.pwPer ≤ s.pwCnt
  · rw [pwCount_periodEnd hend, pwCount_periodEnd (s := s.withSampleClockOf u) hend]
    rfl
  · rw [pwCount_inPeriod hend, pwCount_inPeriod (s := s.withSampleClockOf u) hend]
    rfl

/-- SC_CLK neither reads nor writes a field of the PWM timer or the audio pin (R148). -/
theorem execScClk_withPwmOf (s u : State) :
    execScClk (s.withPwmOf u) = mapNext (fun t => t.withPwmOf u) (execScClk s) := by
  refine guarded_mapNext rfl ?_
  have hmode : (s.withPwmOf u).scMode = s.scMode := rfl
  rw [hmode, scCount_withPwmOf]
  cases s.scMode <;> rfl

/-- PWM_CLK neither reads nor writes a field of the Sample Clock (R148). -/
theorem execPwmClk_withSampleClockOf (s u : State) :
    execPwmClk (s.withSampleClockOf u) = mapNext (fun t => t.withSampleClockOf u) (execPwmClk s) := by
  refine guarded_mapNext rfl ?_
  have hmode : (s.withSampleClockOf u).pwMode = s.pwMode := rfl
  rw [hmode, pwCount_withSampleClockOf]
  cases s.pwMode <;> rfl

/-- Settles O43: each counter's step commutes with replacing the other's fields. -/
theorem countersIndependent : Obligations.CountersIndependent := fun s u =>
  ⟨execScClk_withPwmOf s u, execPwmClk_withSampleClockOf s u⟩

end Sys2Proof.Machine

/-! PROOFS. The lifecycle of the host commands: when a word of the host is taken, and what STOP does
(43_lifecycle.md R173 and R176). -/

namespace Sys2Proof.Machine

/-- An illegal command is taken exactly with no fault recorded and the host not held (43_lifecycle.md R176). -/
theorem execIllegal_enabled {w : Word} {s : State} :
    (∃ t, execIllegal w s = .next t) ↔ s.faults = [] ∧ s.phase = .idle := by
  simp only [execIllegal_next, exists_and_left, exists_eq, and_true]

/-- START, in range or not, and STOP are taken under the same guard (43_lifecycle.md R176). -/
theorem exec_hostCommand_enabled {i : Instr} {s : State} (hi : i.isHostCommand = true) :
    (∃ t, exec i s = .next t) ↔ s.faults = [] ∧ s.phase = .idle := by
  cases i with
  | start base len => simp only [exec, execStart_next, exists_and_left, exists_eq, and_true]
  | stop => simp only [exec, execStop_next, exists_and_left, exists_eq, and_true]
  | _ => cases hi

/-- So is every word the host issues: it is one of the two commands or an illegal one. -/
theorem hostTurn_enabled {w : Word} {s : State} :
    (∃ t, hostTurn w s = .next t) ↔ s.faults = [] ∧ s.phase = .idle := by
  by_cases hcmd : ∃ i, decodeHere s w = .ok i ∧ i.isHostCommand = true
  · obtain ⟨i, hdec, hi⟩ := hcmd
    rw [hostTurn_command hdec hi]
    exact exec_hostCommand_enabled hi
  · have hnone : ∀ i, decodeHere s w = .ok i → i.isHostCommand = false := fun i hdec =>
      Bool.eq_false_iff.mpr fun hi => hcmd ⟨i, hdec, hi⟩
    rw [hostTurn_illegal hnone]
    exact execIllegal_enabled

/-- Settles O16: the guard of every host word is the phase once no fault is recorded, and RETI, which records none, returns
to phase IDLE. -/
theorem hostHeldDuringHandler : Obligations.HostHeldDuringHandler := by
  refine ⟨fun s w hf => hostTurn_enabled.trans (and_iff_right hf), fun s t h => ?_⟩
  obtain ⟨hf, -, rfl⟩ := execReti_next.mp h
  exact ⟨rfl, hf⟩

/-- Settles O15: STOP's writes under its guard, and the two ways the guard fails. -/
theorem stopEffect : Obligations.StopEffect := by
  refine ⟨rfl, fun s => ⟨fun hf hp => ?_, fun hf hp => ?_, fun hf => ?_⟩⟩
  · exact execStop_next.mpr ⟨hf, hp, rfl⟩
  · exact guarded_disabled hf (decide_eq_false hp)
  · exact guarded_stopped hf

end Sys2Proof.Machine

/-! PROOFS. The permanence of a recorded fault: no operation, no turn and no step is taken any more
(60_exceptions.md R202). -/

namespace Sys2Proof.Machine

/-- An illegal command is stopped too: it has the guard of a host command. -/
theorem execIllegal_stopped {w : Word} {s : State} (hf : s.faults ≠ []) : execIllegal w s = .fault .stopped :=
  guarded_stopped hf

/-- START is guarded on both sides of its operand check, and every other operation is one guarded step. -/
theorem exec_stopped {s : State} (hf : s.faults ≠ []) (i : Instr) : exec i s = .fault .stopped := by
  cases i with
  | start base len =>
    simp only [exec, execStart]
    split
    · exact guarded_stopped hf
    · exact execIllegal_stopped hf
  | _ => exact guarded_stopped hf

/-- A turn that answers a next state ran an operation or raised ILLEGAL_COMMAND, and both are stopped. -/
theorem takeTurn_ne_next_of_faults {s : State} (hf : s.faults ≠ []) (turn : Turn) (t : State) :
    takeTurn turn s ≠ .next t := by
  intro h
  obtain ⟨i, -, hexec⟩ | ⟨-, hillegal⟩ := takeTurn_next h
  · simp [exec_stopped hf] at hexec
  · simp [execIllegal_stopped hf] at hillegal

/-- A step looks at the recorded faults before it looks at the schedule. -/
theorem step_stopped {s : State} (hf : s.faults ≠ []) : step s = .fault .stopped := by
  unfold step nextStep
  cases h : s.faults with
  | nil => exact absurd h hf
  | cons _ _ => rfl

/-- Settles O11: a step, every operation and every turn meet the guard that a recorded fault stops. -/
theorem faultStopsBlock : Obligations.FaultStopsBlock := fun _ hf =>
  ⟨step_stopped hf, exec_stopped hf, takeTurn_ne_next_of_faults hf⟩

end Sys2Proof.Machine

/-! PROOFS. Encoding: decoding and encoding are inverse (30_encoding.md R80 to R85, R90). -/

namespace Sys2Proof

/-- An operation with another code than START's has no operands to check (30_encoding.md R83). -/
theorem wf_of_opcode_ne_start {i : Instr} (h : i.opcode ≠ 0x01#8) (addrW lenW : Nat) : i.wf addrW lenW = true := by
  cases i with
  | start _ _ => exact absurd rfl h
  | _ => rfl

theorem decode_encode_start {addrW lenW : Nat} {base : BitVec 32} {len : BitVec 24}
    (hwf : Instr.wf addrW lenW (.start base len) = true) :
    decode addrW lenW (encode (.start base len)) = .ok (.start base len) := by
  obtain ⟨hopc, hlen, hbase⟩ := Laws.Fields.start base len
  simp only [Instr.wf, Bool.and_eq_true, decide_eq_true_eq] at hwf
  rw [decode_start hopc, decodeStart, hlen, hbase]
  simp [Instr.operands, hwf]

theorem decode_encode_label {i : Instr} (h : i.opcode ≠ 0x01#8) (hops : i.operands = (0, 0)) (addrW lenW : Nat) :
    decode addrW lenW (encode i) = .ok i := by
  obtain ⟨hopc, hlen, hbase⟩ := Laws.Fields.of_instr i
  have hbits : Word.operandBits (encode i) = 0 := by
    rw [operandBits_eq_zero, hlen, hbase, hops]
    exact ⟨rfl, rfl⟩
  have hcode : Word.opc (encode i) ≠ 0x01#8 := by rwa [hopc]
  rw [decode_of_operandBits_zero hcode hbits, hopc, labelOf_opcode i h]
  rfl

/-- Settles O1: START by its two operand fields, every other operation by its code. -/
theorem decodeOfEncode : Obligations.DecodeOfEncode := by
  intro addrW lenW i hwf
  cases i with
  | start base len => exact decode_encode_start hwf
  | _ => exact decode_encode_label (by decide) rfl addrW lenW

/-- Settles O2: a word is its three fields, and the decoder checks each of them. -/
theorem encodeOfDecode : Obligations.EncodeOfDecode := by
  intro addrW lenW w i h
  obtain ⟨hcode, hbase, hlen, rfl⟩ | ⟨-, hbits, hlabel⟩ := decode_ok.mp h
  · have hopc : Word.opc w = 0x01#8 := (opc_eq_iff w 0x01#8).mpr hcode
    rw [← base_toNat] at hbase
    rw [← len_toNat] at hlen
    refine ⟨?_, by simp [Instr.wf, hbase, hlen]⟩
    calc encode (.start (Word.base w) (Word.len w))
        = Word.opc w ++ (Word.len w ++ Word.base w) := by rw [hopc]; rfl
      _ = w := fields_append w
  · obtain ⟨hopc, hops, hne⟩ := labelOf_some hlabel
    obtain ⟨hlen, hbase⟩ := (operandBits_eq_zero w).mp ((operandBits_eq_zero_iff w).mpr hbits)
    refine ⟨?_, wf_of_opcode_ne_start (hopc ▸ hne) addrW lenW⟩
    calc encode i = Word.opc w ++ (Word.len w ++ Word.base w) := by rw [encode, hopc, hops, hlen, hbase]
      _ = w := fields_append w

/-- Settles O7: each word is a constant, which the decoder evaluates. -/
theorem specWordsDecode : Obligations.SpecWordsDecode := by
  unfold Obligations.SpecWordsDecode
  decide

end Sys2Proof

/-! PROOFS. What an operation can do: the fault each cause raises and the write of each operation without one, as one
inversion of `exec` (60_exceptions.md R201, 41_sample_clock.md, 42_duty_cycle_output.md, 43_lifecycle.md). -/

namespace Sys2Proof.Machine

/-- With the guard of the operation true, it raises the fault of the table of 60_exceptions.md R201. -/
inductive Raises : Instr → State → FaultRecord → Prop where
  | illegalStart {s : State} {base : BitVec 32} {len : BitVec 24} (idle : s.phase = .idle)
      (range : Instr.wf s.cfg.addrW s.cfg.lenW (.start base len) = false) :
      Raises (.start base len) s ⟨.illegalCommand, some (encode (.start base len)).toNat⟩
  | scMode {s : State} (on : s.scEn = true) (held : overflowHeld s = false) (mode : s.scMode = .other) :
      Raises .scClk s ⟨.unmodelledConfig, some 0⟩
  | pwMode {s : State} (on : s.pwEn = true) (mode : s.pwMode = .other) : Raises .pwmClk s ⟨.unmodelledConfig, some 1⟩
  | noBuffer {s : State} (phase : s.phase = .b) (buffer : bufferHeld s = none) : Raises .loadSample s ⟨.noBuffer, none⟩
  | nullBuffer {s : State} {n : Nat} (phase : s.phase = .b) (buffer : bufferHeld s = some (s.cfg.nullAddr, n)) :
      Raises .loadSample s ⟨.nullBuffer, some s.cursor⟩
  | overrun {s : State} {b n : Nat} (phase : s.phase = .b) (buffer : bufferHeld s = some (b, n))
      (null : b ≠ s.cfg.nullAddr) (past : n ≤ s.cursor)
      (policy : s.cfg.overrunPolicy = .fault ∨ s.cfg.overrunPolicy = .wrap) :
      Raises .loadSample s ⟨.overrun, some s.cursor⟩
  | memRange {s : State} {b n : Nat} (phase : s.phase = .b) (buffer : bufferHeld s = some (b, n))
      (null : b ≠ s.cfg.nullAddr) (inside : s.cursor < n) (range : s.cfg.memSize ≤ b + s.cursor) :
      Raises .loadSample s ⟨.memRange, some (b + s.cursor)⟩
  | unwritten {s : State} (phase : s.phase = .c) (sample : s.sampleTmp = none) :
      Raises .writeCmp s ⟨.unwrittenRead, none⟩

/-- With the guard of the operation true and no cause of a fault, it takes `s` to this next state. -/
inductive Performs : Instr → State → State → Prop where
  | start {s : State} {base : BitVec 32} {len : BitVec 24} (idle : s.phase = .idle)
      (baseFits : base.toNat < 2 ^ s.cfg.addrW) (lenFits : len.toNat < 2 ^ s.cfg.lenW) :
      Performs (.start base len) s (startPlayback base.toNat len.toNat s)
  | stop {s : State} (idle : s.phase = .idle) : Performs .stop s (stopPlayback s)
  | scOverflow {s : State} (on : s.scEn = true) (mode : s.scMode = .normal) (top : s.scCnt = s.scPer)
      (held : s.cfg.assumeNoTickLoss = true → pending s = false) :
      Performs .scClk s { emitIfTickLost s with scCnt := 0, scOvf := true }
  | scCount {s : State} (on : s.scEn = true) (mode : s.scMode = .normal) (below : s.scCnt ≠ s.scPer) :
      Performs .scClk s { s with scCnt := wrap s.cfg.scW (s.scCnt + 1) }
  | pwPeriodEnd {s : State} (on : s.pwEn = true) (mode : s.pwMode = .pwm8) (top : s.pwPer ≤ s.pwCnt) :
      Performs .pwmClk s { s with pwCnt := 0, pwCmpAct := s.pwCmp }
  | pwCount {s : State} (on : s.pwEn = true) (mode : s.pwMode = .pwm8) (below : ¬ s.pwPer ≤ s.pwCnt) :
      Performs .pwmClk s { s with pwCnt := s.pwCnt + 1 }
  | isrEntry {s : State} (idle : s.phase = .idle) (unmasked : s.gie = true) (enabled : s.scOvfie = true)
      (flag : s.scOvf = true) : Performs .isrEntry s (emit .evTick (enterInterrupt s))
  | diagToggle {s : State} (phase : s.phase = .a) :
      Performs .diagToggle s { s with diagLvl := if s.cfg.diagHook then !s.diagLvl else s.diagLvl, phase := .b }
  | loadSample {s : State} {b n : Nat} (phase : s.phase = .b) (buffer : bufferHeld s = some (b, n))
      (null : b ≠ s.cfg.nullAddr) (inside : s.cursor < n) (range : b + s.cursor < s.cfg.memSize) :
      Performs .loadSample s (holdSample (Memory.read s.mem (b + s.cursor)) s)
  | autostop {s : State} {b n : Nat} (phase : s.phase = .b) (buffer : bufferHeld s = some (b, n))
      (null : b ≠ s.cfg.nullAddr) (past : n ≤ s.cursor) (policy : s.cfg.overrunPolicy = .autostop) :
      Performs .loadSample s (emit .evAutoStop { s with scOvfie := false, phase := .e })
  | overrunRead {s : State} {b n : Nat} (phase : s.phase = .b) (buffer : bufferHeld s = some (b, n))
      (null : b ≠ s.cfg.nullAddr) (past : n ≤ s.cursor) (policy : s.cfg.overrunPolicy = .unchecked) :
      Performs .loadSample s
        (emit (.evOverrunRead s.cursor) (holdSample (Config.drawByte s.draws) (advanceDraws s)))
  | writeCmp {s : State} {v : Byte} (phase : s.phase = .c) (sample : s.sampleTmp = some v) :
      Performs .writeCmp s (emit (.evCmpWrite v) { s with pwCmp := v, phase := .d })
  | incCursor {s : State} (phase : s.phase = .d) :
      Performs .incCursor s { s with
        cursor := nextCursor s, phase := .e, draws := if incDraws s then s.draws + 1 else s.draws }
  | clearOvf {s : State} (phase : s.phase = .e) : Performs .clearOvf s { s with scOvf := false, phase := .ret }
  | reti {s : State} (phase : s.phase = .ret) : Performs .reti s (returnFromInterrupt s)

/-- The operation takes `s` to `t`: by the write it performs, or by recording the fault it raises. -/
def Does (i : Instr) (s t : State) : Prop := Performs i s t ∨ ∃ r, Raises i s r ∧ t = { s with faults := [r] }

theorem Does.raise {i : Instr} {s : State} {r : FaultRecord} (hf : s.faults = []) (h : Raises i s r) :
    Does i s (recordFault r s) :=
  .inr ⟨r, h, recordFault_safe hf⟩

/-- A START in range stores its operands as they are (30_encoding.md R82). -/
theorem start_in_range {c : Config} {base : BitVec 32} {len : BitVec 24} :
    Instr.wf c.addrW c.lenW (.start base len) = true ↔
      base.toNat < 2 ^ c.addrW ∧ len.toNat < 2 ^ c.lenW := by
  simp [Instr.wf]

theorem execStart_does {base : BitVec 32} {len : BitVec 24} {s t : State} (h : execStart base len s = .next t) :
    Does (.start base len) s t := by
  obtain ⟨hf, idle, rfl⟩ := execStart_next.mp h
  split
  next hwf =>
    obtain ⟨hbase, hlen⟩ := start_in_range.mp hwf
    rw [startBase, startLen, wrap_of_lt hbase, wrap_of_lt hlen]
    exact .inl (.start idle hbase hlen)
  next hwf => exact .raise hf (.illegalStart idle (Bool.eq_false_iff.mpr hwf))

theorem scCount_top {s : State} (h : s.scCnt = s.scPer) :
    scCount s = { emitIfTickLost s with scCnt := 0, scOvf := true } := if_pos (decide_eq_true h)

theorem scCount_below {s : State} (h : s.scCnt ≠ s.scPer) :
    scCount s = { s with scCnt := wrap s.cfg.scW (s.scCnt + 1) } := if_neg (by simpa [scAtTop] using h)

/-- An overflow is held only at TOP, where it is exactly while the previous one is pending (41_sample_clock.md R103). -/
theorem overflowHeld_top {s : State} (h : s.scCnt = s.scPer) :
    overflowHeld s = false ↔ (s.cfg.assumeNoTickLoss = true → pending s = false) := by
  simp [overflowHeld, scAtTop, h]

theorem overflowHeld_below {s : State} (h : s.scCnt ≠ s.scPer) : overflowHeld s = false := by
  simp [overflowHeld, scAtTop, h]

theorem execScClk_does {s t : State} (h : execScClk s = .next t) : Does .scClk s t := by
  obtain ⟨hf, ⟨on, held⟩, rfl⟩ := execScClk_next.mp h
  cases hmode : s.scMode with
  | other => exact .raise hf (.scMode on held hmode)
  | normal =>
    rw [if_pos rfl]
    by_cases htop : s.scCnt = s.scPer
    · rw [scCount_top htop]
      exact .inl (.scOverflow on hmode htop ((overflowHeld_top htop).mp held))
    · rw [scCount_below htop]
      exact .inl (.scCount on hmode htop)

theorem execPwmClk_does {s t : State} (h : execPwmClk s = .next t) : Does .pwmClk s t := by
  obtain ⟨hf, on, rfl⟩ := execPwmClk_next.mp h
  cases hmode : s.pwMode with
  | other => exact .raise hf (.pwMode on hmode)
  | pwm8 =>
    rw [if_pos rfl]
    by_cases htop : s.pwPer ≤ s.pwCnt
    · rw [pwCount_periodEnd htop]
      exact .inl (.pwPeriodEnd on hmode htop)
    · rw [pwCount_inPeriod htop]
      exact .inl (.pwCount on hmode htop)

theorem execLoadSample_does {s t : State} (h : execLoadSample s = .next t) : Does .loadSample s t := by
  obtain ⟨hf, hp, hload⟩ := execLoadSample_next.mp h
  obtain ⟨hb, rfl⟩ | ⟨n, hb, rfl⟩ | ⟨b, n, hb, hnull, hpast, hpol⟩ | ⟨b, n, hb, hnull, hin, rfl⟩ :=
    loadSample_next.mp hload
  · exact .raise hf (.noBuffer hp hb)
  · exact .raise hf (.nullBuffer hp hb)
  · obtain ⟨hpol, rfl⟩ | ⟨hpol, rfl⟩ | ⟨hpol, rfl⟩ := hpol
    · exact .raise hf (.overrun hp hb hnull hpast hpol)
    · exact .inl (.autostop hp hb hnull hpast hpol)
    · exact .inl (.overrunRead hp hb hnull hpast hpol)
  · split
    next hrange => exact .inl (.loadSample hp hb hnull hin hrange)
    next hrange => exact .raise hf (.memRange hp hb hnull hin (Nat.not_lt.mp hrange))

/-- An operation that answers a next state had no fault recorded, and does one of the things listed for it. -/
theorem exec_does {i : Instr} {s t : State} (h : exec i s = .next t) : s.faults = [] ∧ Does i s t := by
  cases i with
  | start base len => exact ⟨(execStart_next.mp h).1, execStart_does h⟩
  | stop =>
    obtain ⟨hf, hp, rfl⟩ := execStop_next.mp h
    exact ⟨hf, .inl (.stop hp)⟩
  | scClk => exact ⟨(execScClk_next.mp h).1, execScClk_does h⟩
  | pwmClk => exact ⟨(execPwmClk_next.mp h).1, execPwmClk_does h⟩
  | isrEntry =>
    obtain ⟨hf, ⟨hp, hgie, hie, hovf⟩, rfl⟩ := execIsrEntry_next.mp h
    exact ⟨hf, .inl (.isrEntry hp hgie hie hovf)⟩
  | diagToggle =>
    obtain ⟨hf, hp, rfl⟩ := execDiagToggle_next.mp h
    exact ⟨hf, .inl (.diagToggle hp)⟩
  | loadSample => exact ⟨(execLoadSample_next.mp h).1, execLoadSample_does h⟩
  | writeCmp =>
    obtain ⟨hf, hp, ⟨hnone, rfl⟩ | ⟨v, hheld, rfl⟩⟩ := execWriteCmp_next.mp h
    · exact ⟨hf, .raise hf (.unwritten hp hnone)⟩
    · exact ⟨hf, .inl (.writeCmp hp hheld)⟩
  | incCursor =>
    obtain ⟨hf, hp, rfl⟩ := execIncCursor_next.mp h
    exact ⟨hf, .inl (.incCursor hp)⟩
  | clearOvf =>
    obtain ⟨hf, hp, rfl⟩ := execClearOvf_next.mp h
    exact ⟨hf, .inl (.clearOvf hp)⟩
  | reti =>
    obtain ⟨hf, hp, rfl⟩ := execReti_next.mp h
    exact ⟨hf, .inl (.reti hp)⟩

theorem exec_of_performs {i : Instr} {s t : State} (hf : s.faults = []) (h : Performs i s t) : exec i s = .next t := by
  cases h with
  | start hp hbase hlen =>
    have hwf := start_in_range.mpr ⟨hbase, hlen⟩
    refine execStart_next.mpr ⟨hf, hp, ?_⟩
    rw [if_pos hwf, startBase, startLen, wrap_of_lt hbase, wrap_of_lt hlen]
  | stop hp => exact execStop_next.mpr ⟨hf, hp, rfl⟩
  | scOverflow on hmode htop hheld =>
    exact execScClk_next.mpr ⟨hf, ⟨on, (overflowHeld_top htop).mpr hheld⟩, by rw [if_pos hmode, scCount_top htop]⟩
  | scCount on hmode hbelow =>
    exact execScClk_next.mpr ⟨hf, ⟨on, overflowHeld_below hbelow⟩, by rw [if_pos hmode, scCount_below hbelow]⟩
  | pwPeriodEnd on hmode htop =>
    exact execPwmClk_next.mpr ⟨hf, on, by rw [if_pos hmode, pwCount_periodEnd htop]⟩
  | pwCount on hmode hbelow =>
    exact execPwmClk_next.mpr ⟨hf, on, by rw [if_pos hmode, pwCount_inPeriod hbelow]⟩
  | isrEntry hp hgie hie hovf => exact execIsrEntry_next.mpr ⟨hf, ⟨hp, hgie, hie, hovf⟩, rfl⟩
  | diagToggle hp => exact execDiagToggle_next.mpr ⟨hf, hp, rfl⟩
  | loadSample hp hb hnull hin hrange =>
    exact execLoadSample_next.mpr ⟨hf, hp, loadSample_next.mpr
      (.inr (.inr (.inr ⟨_, _, hb, hnull, hin, (if_pos hrange).symm⟩)))⟩
  | autostop hp hb hnull hpast hpol =>
    exact execLoadSample_next.mpr ⟨hf, hp, loadSample_next.mpr
      (.inr (.inr (.inl ⟨_, _, hb, hnull, hpast, .inr (.inl ⟨hpol, rfl⟩)⟩)))⟩
  | overrunRead hp hb hnull hpast hpol =>
    exact execLoadSample_next.mpr ⟨hf, hp, loadSample_next.mpr
      (.inr (.inr (.inl ⟨_, _, hb, hnull, hpast, .inr (.inr ⟨hpol, rfl⟩)⟩)))⟩
  | writeCmp hp hheld => exact execWriteCmp_next.mpr ⟨hf, hp, .inr ⟨_, hheld, rfl⟩⟩
  | incCursor hp => exact execIncCursor_next.mpr ⟨hf, hp, rfl⟩
  | clearOvf hp => exact execClearOvf_next.mpr ⟨hf, hp, rfl⟩
  | reti hp => exact execReti_next.mpr ⟨hf, hp, rfl⟩

theorem exec_of_raises {i : Instr} {s : State} {r : FaultRecord} (hf : s.faults = []) (h : Raises i s r) :
    exec i s = .next { s with faults := [r] } := by
  rw [← recordFault_safe hf]
  cases h with
  | illegalStart hp hwf => exact execStart_next.mpr ⟨hf, hp, by simp [hwf]⟩
  | scMode on hheld hmode => exact execScClk_next.mpr ⟨hf, ⟨on, hheld⟩, by simp [hmode]⟩
  | pwMode on hmode => exact execPwmClk_next.mpr ⟨hf, on, by simp [hmode]⟩
  | noBuffer hp hb => exact execLoadSample_next.mpr ⟨hf, hp, loadSample_next.mpr (.inl ⟨hb, rfl⟩)⟩
  | nullBuffer hp hb => exact execLoadSample_next.mpr ⟨hf, hp, loadSample_next.mpr (.inr (.inl ⟨_, hb, rfl⟩))⟩
  | overrun hp hb hnull hpast hpol =>
    exact execLoadSample_next.mpr ⟨hf, hp, loadSample_next.mpr
      (.inr (.inr (.inl ⟨_, _, hb, hnull, hpast, .inl ⟨hpol, rfl⟩⟩)))⟩
  | memRange hp hb hnull hin hrange =>
    exact execLoadSample_next.mpr ⟨hf, hp, loadSample_next.mpr
      (.inr (.inr (.inr ⟨_, _, hb, hnull, hin, (if_neg (Nat.not_lt.mpr hrange)).symm⟩)))⟩
  | unwritten hp hnone => exact execWriteCmp_next.mpr ⟨hf, hp, .inl ⟨hnone, rfl⟩⟩

/-- Everything an operation can answer a next state with, and when. -/
theorem exec_next {i : Instr} {s t : State} : exec i s = .next t ↔ s.faults = [] ∧ Does i s t := by
  refine ⟨exec_does, ?_⟩
  rintro ⟨hf, hperf | ⟨r, hraise, rfl⟩⟩
  · exact exec_of_performs hf hperf
  · exact exec_of_raises hf hraise

/-- What an operation performs raises no fault. -/
theorem Performs.faults {i : Instr} {s t : State} (h : Performs i s t) : t.faults = s.faults := by
  cases h <;> rfl

/-- An operation that leaves no fault recorded performed its write. -/
theorem exec_performs {i : Instr} {s t : State} (h : exec i s = .next t) (ht : t.faults = []) : Performs i s t := by
  obtain ⟨-, hperf | ⟨r, -, rfl⟩⟩ := exec_next.mp h
  · exact hperf
  · cases ht

/-- An operation that leaves a fault recorded raised it, and wrote nothing else. -/
theorem exec_raises {i : Instr} {s t : State} (h : exec i s = .next t) (ht : t.faults ≠ []) :
    ∃ r, Raises i s r ∧ t = { s with faults := [r] } := by
  obtain ⟨hf, hperf | hraise⟩ := exec_next.mp h
  · exact absurd (hperf.faults.trans hf) ht
  · exact hraise

end Sys2Proof.Machine

/-! PROOFS. The invariant of the machine: each operation keeps each of its four parts, and a launch has them
(00_scope.md section 3, 10_state.md section 9, 60_exceptions.md R201). -/

namespace Sys2Proof.Machine

/-! ### Registers fit their widths -/

/-- What 00_scope.md R7 asks of the parameters. -/
theorem config_wf_iff {c : Config} :
    c.wf = true ↔ c.lenW ≤ c.cursorW ∧ 1 ≤ c.memSize ∧ c.memSize ≤ 2 ^ c.addrW ∧ c.nullAddr < 2 ^ c.addrW ∧
      c.scPerVal < 2 ^ c.scW := by
  simp [Config.wf, and_assoc]

/-- A buffer length fits the cursor, because `CURSOR_W >= LEN_W`. -/
theorem State.Fits.len_lt_cursor {s : State} (hs : s.Fits) {n : Nat} (hn : s.bufLen = some n) :
    n < 2 ^ s.cfg.cursorW := by
  obtain ⟨hle, -⟩ := config_wf_iff.mp hs.params
  exact (hs.len n hn).trans_le (Nat.pow_le_pow_right two_pos hle)

theorem State.Fits.scPerVal_lt {s : State} (hs : s.Fits) : s.cfg.scPerVal < 2 ^ s.cfg.scW := by
  obtain ⟨-, -, -, -, hlt⟩ := config_wf_iff.mp hs.params
  exact hlt

theorem nextCursor_lt {s : State} (hs : s.Fits) : nextCursor s < 2 ^ s.cfg.cursorW := by
  by_cases hpol : s.cfg.overrunPolicy = .wrap
  · cases hlen : s.bufLen with
    | none => simpa only [nextCursor, hpol, hlen] using wrap_lt _ _
    | some n =>
      have := hs.len_lt_cursor hlen
      rw [nextCursor_wrap hpol hlen]
      split <;> omega
  · rw [nextCursor_modular hpol]
    exact wrap_lt _ _

theorem Performs.fits {i : Instr} {s t : State} (h : Performs i s t) (hs : s.Fits) : t.Fits := by
  cases h with
  | start _ hbase hlen => exact { hs with
      base := fun _ hb => Option.some.inj hb ▸ hbase
      len := fun _ hn => Option.some.inj hn ▸ hlen
      cursor := Nat.two_pow_pos _
      per := hs.scPerVal_lt }
  | stop => exact { hs with cursor := Nat.two_pow_pos _ }
  | scOverflow => exact { hs with cnt := Nat.two_pow_pos _ }
  | scCount => exact { hs with cnt := wrap_lt _ _ }
  | incCursor => exact { hs with cursor := nextCursor_lt hs }
  | _ => exact { hs with }

/-! ### The timers' configuration -/

theorem Performs.configured {i : Instr} {s t : State} (h : Performs i s t) (hs : s.Configured) : t.Configured := by
  cases h with
  | start => exact { hs with
      sampleClock := fun _ => ⟨rfl, rfl⟩
      buffer := fun _ => ⟨rfl, rfl⟩
      pwm := fun _ => ⟨rfl, rfl⟩
      pin := fun _ => ⟨rfl, rfl, rfl⟩
      pwmNeedsClock := fun _ => rfl
      interruptNeedsPwm := fun _ => rfl
      drained := nofun
      flagNeedsClock := fun _ => rfl }
  | stop => exact { hs with
      pwm := nofun
      pin := nofun
      pwmNeedsClock := nofun
      interruptNeedsPwm := nofun
      drained := nofun
      portLow := rfl }
  | scOverflow on => exact { hs with
      count := Nat.zero_le _
      flagNeedsClock := fun _ => on }
  | scCount on _ hbelow =>
    obtain ⟨-, hper⟩ := hs.sampleClock on
    have hlt : s.scCnt < s.cfg.scPerVal := lt_of_le_of_ne hs.count (hper ▸ hbelow)
    exact { hs with count := (wrap_le _ _).trans hlt }
  | autostop _ _ _ _ hpol => exact { hs with
      interruptNeedsPwm := nofun
      drained := fun _ _ => hpol }
  | clearOvf => exact { hs with flagNeedsClock := nofun }
  | _ => exact { hs with }

/-! ### The handler's phase -/

/-- Below the length, the next cursor is at most the length. -/
theorem nextCursor_le {s : State} {n : Nat} (hn : s.bufLen = some n) (hlt : s.cursor < n) : nextCursor s ≤ n := by
  by_cases hpol : s.cfg.overrunPolicy = .wrap
  · rw [nextCursor_wrap hpol hn]
    split <;> omega
  · rw [nextCursor_modular hpol]
    exact (Nat.mod_le _ _).trans hlt

/-- Under `wrap` the next cursor is below the length of a non-empty buffer. -/
theorem nextCursor_wrap_lt {s : State} {n : Nat} (hpol : s.cfg.overrunPolicy = .wrap) (hn : s.bufLen = some n)
    (hlt : s.cursor < n) : nextCursor s < n := by
  rw [nextCursor_wrap hpol hn]
  split <;> omega

section

variable {i : Instr} {s t : State} (h : Performs i s t) (hs : s.HandlerSound)
include h hs

theorem Performs.pwmOn (hc : s.Configured) : t.phase ≠ .idle → t.pwEn = true := by
  cases h with
  | start => exact fun _ => rfl
  | stop hp => exact fun hne => absurd hp hne
  | isrEntry _ _ hie => exact fun _ => hc.interruptNeedsPwm hie
  | diagToggle hp | loadSample hp | autostop hp | overrunRead hp | writeCmp hp | incCursor hp | clearOvf hp =>
    exact fun _ => hs.pwmOn (by simp [hp])
  | reti => exact fun hne => absurd rfl hne
  | scOverflow | scCount | pwPeriodEnd | pwCount => exact hs.pwmOn

theorem Performs.masked : t.phase ≠ .idle → t.gie = false := by
  cases h with
  | start hp | stop hp => exact fun hne => absurd hp hne
  | isrEntry => exact fun _ => rfl
  | diagToggle hp | loadSample hp | autostop hp | overrunRead hp | writeCmp hp | incCursor hp | clearOvf hp =>
    exact fun _ => hs.masked (by simp [hp])
  | reti => exact fun hne => absurd rfl hne
  | scOverflow | scCount | pwPeriodEnd | pwCount => exact hs.masked

theorem Performs.unmasked (hc : s.Configured) : t.phase = .idle → (t.gie = true ↔ t.scEn = true) := by
  cases h with
  | start => exact fun _ => ⟨fun _ => rfl, fun _ => rfl⟩
  | isrEntry | diagToggle | loadSample | autostop | overrunRead | writeCmp | incCursor | clearOvf => nofun
  | reti hp =>
    have hclock : s.scEn = true := hc.pwmNeedsClock (hs.pwmOn (by simp [hp]))
    exact fun _ => ⟨fun _ => hclock, fun _ => rfl⟩
  | stop | scOverflow | scCount | pwPeriodEnd | pwCount => exact hs.unmasked

theorem Performs.flagHeld : t.phase ≠ .idle → t.phase ≠ .ret → t.scOvf = true := by
  cases h with
  | scOverflow => exact fun _ _ => rfl
  | isrEntry _ _ _ hovf => exact fun _ _ => hovf
  | diagToggle hp | loadSample hp | autostop hp | overrunRead hp | writeCmp hp | incCursor hp =>
    exact fun _ _ => hs.flagHeld (by simp [hp]) (by simp [hp])
  | clearOvf => exact fun _ hne => absurd rfl hne
  | reti => exact fun hne => absurd rfl hne
  | start | stop | scCount | pwPeriodEnd | pwCount => exact hs.flagHeld

theorem Performs.enabled : t.phase = .a ∨ t.phase = .b ∨ t.phase = .c ∨ t.phase = .d → t.scOvfie = true := by
  cases h with
  | start => exact fun _ => rfl
  | stop hp => exact fun hne => by simp [hp] at hne
  | isrEntry _ _ hie => exact fun _ => hie
  | diagToggle hp | loadSample hp | overrunRead hp | writeCmp hp => exact fun _ => hs.enabled (by simp [hp])
  | autostop | incCursor | clearOvf | reti => nofun
  | scOverflow | scCount | pwPeriodEnd | pwCount => exact hs.enabled

theorem Performs.sampleHeld : t.phase = .c → t.sampleTmp.isSome = true := by
  cases h with
  | loadSample | overrunRead => exact fun _ => rfl
  | isrEntry | diagToggle | autostop | writeCmp | incCursor | clearOvf | reti => nofun
  | start | stop | scOverflow | scCount | pwPeriodEnd | pwCount => exact hs.sampleHeld

theorem Performs.sampleNone : t.phase = .idle ∨ t.phase = .a ∨ t.phase = .b → t.sampleTmp = none := by
  cases h with
  | isrEntry hp | diagToggle hp => exact fun _ => hs.sampleNone (by simp [hp])
  | loadSample | autostop | overrunRead | writeCmp | incCursor | clearOvf => nofun
  | reti => exact fun _ => rfl
  | start | stop | scOverflow | scCount | pwPeriodEnd | pwCount => exact hs.sampleNone

theorem Performs.inBuffer : t.phase = .c ∨ t.phase = .d → t.cfg.overrunPolicy ≠ .unchecked →
    ∀ n, t.bufLen = some n → t.cursor < n := by
  cases h with
  | start hp | stop hp => exact fun hcd => by simp [hp] at hcd
  | loadSample _ hb _ hin => exact fun _ _ _ hn => Option.some.inj ((bufferHeld_some.mp hb).2.symm.trans hn) ▸ hin
  | overrunRead _ _ _ _ hunchecked => exact fun _ hpol => absurd hunchecked hpol
  | writeCmp hp => exact fun _ => hs.inBuffer (.inl hp)
  | isrEntry | diagToggle | autostop | incCursor | clearOvf | reti => nofun
  | scOverflow | scCount | pwPeriodEnd | pwCount => exact hs.inBuffer

theorem Performs.bounded : t.cfg.overrunPolicy ≠ .unchecked → ∀ n, t.bufLen = some n → t.cursor ≤ n := by
  cases h with
  | start | stop => exact fun _ _ _ => Nat.zero_le _
  | incCursor hp => exact fun hpol n hn => nextCursor_le hn (hs.inBuffer (.inr hp) hpol n hn)
  | _ => exact hs.bounded

theorem Performs.wrapped : t.cfg.overrunPolicy = .wrap → ∀ n, t.bufLen = some n → t.cursor < n ∨ n = 0 := by
  cases h with
  | start | stop => exact fun _ n _ => n.eq_zero_or_pos.symm
  | incCursor hp =>
    intro hpol n hn
    exact .inl (nextCursor_wrap_lt hpol hn (hs.inBuffer (.inr hp) (ne_of_eq_of_ne hpol nofun) n hn))
  | _ => exact hs.wrapped

theorem Performs.handler (hc : s.Configured) : t.HandlerSound :=
  ⟨h.pwmOn hs hc, h.masked hs, h.unmasked hs hc, h.flagHeld hs, h.enabled hs, h.sampleHeld hs, h.sampleNone hs,
    h.inBuffer hs, h.bounded hs, h.wrapped hs⟩

end

/-! ### The recorded faults, and the whole invariant -/

theorem State.FaultsSound.of_safe {s : State} (h : s.faults = []) : s.FaultsSound := by
  constructor <;> simp [h]

theorem Performs.inv {i : Instr} {s t : State} (hf : s.faults = []) (h : Performs i s t) (hs : s.Inv) : t.Inv where
  fits := h.fits hs.fits
  configured := h.configured hs.configured
  handler := h.handler hs.handler hs.configured
  faults := .of_safe (h.faults.trans hf)

/-- Under `wrap` the cursor is past the end of an empty buffer only. -/
theorem State.HandlerSound.wrap_overrun_empty {s : State} (hs : s.HandlerSound) (hpol : s.cfg.overrunPolicy = .wrap)
    {n : Nat} (hn : s.bufLen = some n) (hpast : n ≤ s.cursor) : s.bufLen = some 0 := by
  obtain hlt | rfl := hs.wrapped hpol n hn
  · exact absurd hpast hlt.not_ge
  · exact hn

/-- No operation raises a fault whose code 60_exceptions.md R201 calls unreachable. -/
theorem Raises.reachableCode {i : Instr} {s : State} {r : FaultRecord} (h : Raises i s r) (hs : s.Inv) :
    r.code ≠ .noBuffer ∧ r.code ≠ .unwrittenRead ∧ r.code ≠ .unmodelledConfig := by
  cases h with
  | scMode on _ mode => cases (hs.configured.sampleClock on).1.symm.trans mode
  | pwMode on mode => cases (hs.configured.pwm on).1.symm.trans mode
  | noBuffer phase buffer =>
    have hclock : s.scEn = true := hs.configured.pwmNeedsClock (hs.handler.pwmOn (by simp [phase]))
    obtain ⟨hbase, hlen⟩ := hs.configured.buffer hclock
    obtain hnone | hnone := bufferHeld_none.mp buffer <;> simp [hnone] at hbase hlen
  | unwritten phase hnone =>
    have hheld := hs.handler.sampleHeld phase
    simp [hnone] at hheld
  | _ => exact ⟨nofun, nofun, nofun⟩

/-- Under `wrap` OVERRUN is raised for an empty buffer only. -/
theorem Raises.wrapOverrun {i : Instr} {s : State} {r : FaultRecord} (h : Raises i s r) (hs : s.Inv)
    (hpol : s.cfg.overrunPolicy = .wrap) (hcode : r.code = .overrun) : s.bufLen = some 0 := by
  cases h with
  | overrun _ buffer _ past => exact hs.handler.wrap_overrun_empty hpol (bufferHeld_some.mp buffer).2 past
  | _ => cases hcode

/-- Recording one fault, of a code that can be raised, changes nothing else of the invariant. -/
theorem State.Inv.record {s : State} (hs : s.Inv) {r : FaultRecord}
    (hcode : r.code ≠ .noBuffer ∧ r.code ≠ .unwrittenRead ∧ r.code ≠ .unmodelledConfig)
    (hwrap : s.cfg.overrunPolicy = .wrap → r.code = .overrun → s.bufLen = some 0) :
    State.Inv { s with faults := [r] } where
  fits := { hs.fits with }
  configured := { hs.configured with }
  handler := { hs.handler with }
  faults := ⟨le_rfl, fun q hq => by rw [List.mem_singleton.mp hq]; exact hcode,
    fun hpol q hq hover => hwrap hpol (List.mem_singleton.mp hq ▸ hover)⟩

theorem exec_inv {i : Instr} {s t : State} (hs : s.Inv) (h : exec i s = .next t) : t.Inv := by
  obtain ⟨hf, hperf | ⟨r, hraise, rfl⟩⟩ := exec_next.mp h
  · exact hperf.inv hf hs
  · exact hs.record (hraise.reachableCode hs) (hraise.wrapOverrun hs)

theorem execIllegal_inv {w : Word} {s t : State} (hs : s.Inv) (h : execIllegal w s = .next t) : t.Inv := by
  obtain ⟨hf, -, rfl⟩ := execIllegal_next.mp h
  rw [recordFault_safe hf]
  exact hs.record ⟨nofun, nofun, nofun⟩ nofun

/-- The invariant says nothing of the model's own two fields. -/
theorem State.Inv.own {s : State} (hs : s.Inv) (turns : List Turn) (draws : Nat) :
    State.Inv { s with schedule := turns, draws := draws } where
  fits := { hs.fits with }
  configured := { hs.configured with }
  handler := { hs.handler with }
  faults := { hs.faults with }

/-- Settles O52: every operation and every illegal command keeps the invariant, so every step does. -/
theorem stepKeepsInvariant : Obligations.StepKeepsInvariant := fun _ _ hs h =>
  step_keeps (fun _ turns draws hs => hs.own turns draws) (fun _ _ _ => exec_inv) (fun _ _ _ => execIllegal_inv) hs h

/-! ### The invariant of a run -/

/-- Right after reset nothing is enabled and every register is 0. -/
theorem boot_inv {cfg : Config} {mem : Memory} (hcfg : cfg.wf = true) (hmem : Memory.wf mem = true)
    (hin : Memory.within cfg.memSize mem = true) : (State.boot cfg mem).Inv where
  fits := ⟨hcfg, hmem, hin, nofun, nofun, Nat.two_pow_pos _, Nat.two_pow_pos _, Nat.two_pow_pos _⟩
  configured := ⟨nofun, nofun, nofun, nofun, nofun, nofun, nofun, Nat.zero_le _, nofun, rfl⟩
  handler := ⟨fun hne => absurd rfl hne, fun hne => absurd rfl hne, fun _ => Iff.rfl, fun hne => absurd rfl hne,
    nofun, nofun, fun _ => rfl, nofun, nofun, nofun⟩
  faults := .of_safe rfl

/-- The launch parameters' defaults, and every value an OPEN one can have, are as 00_scope.md R7 asks. -/
theorem launch_wf : Config.launch.wf = true := by
  have htop := Config.openMemTop.isLt
  have hper := Config.openScPerVal.isLt
  refine config_wf_iff.mpr ⟨le_rfl, Nat.le_add_left _ _, htop, Nat.two_pow_pos _, hper⟩

/-- Settles O51: `State.reset` is a launch with parameters as the spec asks. -/
theorem invariantAtReset : Obligations.InvariantAtReset := boot_inv launch_wf Memory.reset_wf rfl

theorem reachable_inv {s : State} (h : Reachable s) : s.Inv :=
  reachable_induction (fun _ _ turns draws hcfg hmem hin => (boot_inv hcfg hmem hin).own turns draws)
    stepKeepsInvariant h

/-- The playback state names the enable bits (10_state.md R50). -/
theorem playback_unreachable {s : State} : playback s = .unreachable ↔ s.scOvfie = true ∧ s.pwEn = false := by
  unfold playback
  cases s.scOvfie <;> cases s.pwEn <;> simp

theorem playback_drained {s : State} : playback s = .drained ↔ s.scOvfie = false ∧ s.pwEn = true := by
  unfold playback
  cases s.scOvfie <;> cases s.pwEn <;> simp

/-- The three codes 60_exceptions.md R201 calls unreachable, by number. -/
theorem number_of_reachableCode {c : FaultCode} (h : c ≠ .noBuffer ∧ c ≠ .unwrittenRead ∧ c ≠ .unmodelledConfig) :
    c.number ≠ 3 ∧ c.number ≠ 6 ∧ c.number ≠ 7 := by
  cases c <;> simp_all [FaultCode.number]

/-- Settles O55: each clause is a field of the invariant, which every run has. -/
theorem unreachableStates : Obligations.UnreachableStates := by
  intro s h
  have hs := reachable_inv h
  refine ⟨fun hp => ?_, fun hp => ?_, hs.faults.atMostOne, hs.faults.wrapOverrun, fun r hr => ?_⟩
  · obtain ⟨hie, hpw⟩ := playback_unreachable.mp hp
    simp [hs.configured.interruptNeedsPwm hie] at hpw
  · obtain ⟨hie, hpw⟩ := playback_drained.mp hp
    exact hs.configured.drained hpw hie
  · exact number_of_reachableCode (hs.faults.reachableCode r hr)

end Sys2Proof.Machine

/-! PROOFS. Playback order: the compare writes since the last START are the buffer's samples from index 0
(95_test_vectors.md L1-1 and L1-6, 41_sample_clock.md section 6). -/

namespace Sys2Proof.Machine

/-- An event acts on what the history before it has played. -/
theorem played_emit (e : Event) (s : State) : played (emit e s) = playedStep (played s) e := by
  simp [played]

/-- A count of the Sample Clock plays nothing, whether it loses a tick or not. -/
theorem played_emitIfTickLost (s : State) : played (emitIfTickLost s) = played s := by
  unfold played
  rw [emitIfTickLost_history]
  split <;> simp [playedStep]

/-- `t` has the launch, the buffer reference and the compare writes since the last START of `s`. -/
structure SamePlayback (s t : State) : Prop where
  cfg : t.cfg = s.cfg
  mem : t.mem = s.mem
  buffer : bufferHeld t = bufferHeld s
  played : played t = played s

/-- The cursor counts the samples played, where it counts anything. -/
def CursorCounts (s : State) : Prop :=
  ∀ b n, bufferHeld s = some (b, n) → live s →
    s.cursor = if s.cfg.overrunPolicy = .wrap then playedBeforeCursor s % n else playedBeforeCursor s

/-- A step that plays nothing keeps what has been played; the cursor and the byte held are its own. -/
theorem State.Plays.of_same {s t : State} (hs : s.Plays) (hsame : SamePlayback s t) (cursor : CursorCounts t)
    (written : t.phase = .d → s.phase = .d)
    (sample : ∀ b n v, bufferHeld s = some (b, n) → t.phase = .c → t.sampleTmp = some v →
      v = Memory.read s.mem (b + t.cursor)) : t.Plays := by
  obtain ⟨hcfg, hmem, hbuf, hplayed⟩ := hsame
  constructor
  case cursor => exact cursor
  case written => exact fun hp => hplayed ▸ hs.written (written hp)
  all_goals rw [hbuf]
  case noBuffer => exact fun hnone => hplayed.trans (hs.noBuffer hnone)
  case bytes => rw [hplayed, hmem]; exact hs.bytes
  case bound => rw [hplayed, hcfg]; exact hs.bound
  case sample => rw [hmem]; exact sample

/-- A step that plays nothing, leaves the cursor and neither enters nor leaves phase D keeps playback order. -/
theorem State.Plays.frame {s t : State} (hs : s.Plays) (hsame : SamePlayback s t) (hcursor : t.cursor = s.cursor)
    (hlive : live t → live s) (hd : t.phase = .d ↔ s.phase = .d)
    (sample : ∀ b n v, bufferHeld s = some (b, n) → t.phase = .c → t.sampleTmp = some v →
      v = Memory.read s.mem (b + s.cursor)) : t.Plays := by
  refine hs.of_same hsame (fun b n hb hl => ?_) hd.mp (hcursor.symm ▸ sample)
  have hbefore : playedBeforeCursor t = playedBeforeCursor s := by simp only [playedBeforeCursor, hd, hsame.played]
  rw [hcursor, hbefore, hsame.cfg]
  exact hs.cursor b n (hsame.buffer ▸ hb) (hlive hl)

/-- In a handler run the cursor, inside the buffer, is the index of the next sample. -/
theorem State.Plays.cursor_mod {s : State} (hs : s.Plays) {b n : Nat} (hb : bufferHeld s = some (b, n))
    (hlive : live s) (hlt : s.cursor < n) : s.cursor = playedBeforeCursor s % n := by
  have hc := hs.cursor b n hb hlive
  split at hc
  · exact hc
  · rw [hc, Nat.mod_eq_of_lt (hc ▸ hlt)]

/-- In a handler run a buffer is held (10_state.md R50). -/
theorem State.Inv.buffer_of_handler {s : State} (hi : s.Inv) (hp : s.phase ≠ .idle) :
    ∃ b n, bufferHeld s = some (b, n) := by
  obtain ⟨hbase, hlen⟩ := hi.configured.buffer (hi.configured.pwmNeedsClock (hi.handler.pwmOn hp))
  obtain ⟨b, hb⟩ := Option.isSome_iff_exists.mp hbase
  obtain ⟨n, hn⟩ := Option.isSome_iff_exists.mp hlen
  exact ⟨b, n, bufferHeld_some.mpr ⟨hb, hn⟩⟩

/-- In phases C and D the cursor is inside the buffer. -/
theorem State.Inv.cursor_lt {s : State} (hi : s.Inv) (hpol : s.cfg.overrunPolicy ≠ .unchecked)
    (hp : s.phase = .c ∨ s.phase = .d) {b n : Nat} (hb : bufferHeld s = some (b, n)) : s.cursor < n :=
  hi.handler.inBuffer hp hpol n (bufferHeld_some.mp hb).2

theorem live_of_phase {s : State} {p : Phase} (h : s.phase = p) (hp : p ≠ .idle) : live s := .inr (h ▸ hp)

/-- Counting one more sample modulo the length is the cursor's step under `wrap`. -/
theorem succ_mod_length {m n : Nat} (h : m % n < n) :
    (m + 1) % n = if n ≤ m % n + 1 then 0 else m % n + 1 := by
  split
  · have hlast : m % n + 1 = n := by omega
    rw [← Nat.mod_add_mod, hlast, Nat.mod_self]
  · rw [← Nat.mod_add_mod, Nat.mod_eq_of_lt (by omega)]

/-- START begins a new buffer, of which nothing has been played. -/
theorem start_plays {s : State} (hp : s.phase = .idle) (base len : Nat) : (startPlayback base len s).Plays := by
  have hplayed : played (startPlayback base len s) = [] := played_emit _ _
  constructor
  case cursor => intro _ _ _ _; simp [playedBeforeCursor, hplayed]
  case noBuffer => exact fun _ => hplayed
  all_goals simp [hplayed, hp]

/-- WRITE_CMP plays the sample at the cursor, the next one of the buffer. -/
theorem writeCmp_plays {s : State} {v : Byte} (hpol : s.cfg.overrunPolicy ≠ .unchecked) (hi : s.Inv) (hs : s.Plays)
    (hp : s.phase = .c) (hv : s.sampleTmp = some v) :
    (emit (.evCmpWrite v) { s with pwCmp := v, phase := .d }).Plays := by
  obtain ⟨b, n, hb⟩ := hi.buffer_of_handler (by simp [hp])
  have hlive : live s := live_of_phase hp nofun
  have hlt : s.cursor < n := hi.cursor_lt hpol (.inl hp) hb
  have hbefore : playedBeforeCursor s = (played s).length := by simp [playedBeforeCursor, hp]
  have hvalue : v = Memory.read s.mem (b + (played s).length % n) := by
    rw [hs.sample b n v hb hp hv, hs.cursor_mod hb hlive hlt, hbefore]
  have hplayed : played (emit (.evCmpWrite v) { s with pwCmp := v, phase := .d }) = played s ++ [v] :=
    played_emit _ _
  constructor
  case noBuffer => exact fun hnone => by cases hnone.symm.trans hb
  case written => simp [hplayed]
  case sample => nofun
  all_goals
    intro b' n' hb'
    cases hb'.symm.trans hb
  case bytes =>
    rw [hplayed, List.length_append, List.length_singleton, List.range_succ, List.map_append]
    exact congrArg₂ (· ++ ·) (hs.bytes b n hb) (congrArg (fun w => [w]) hvalue)
  case bound =>
    intro (hwrap : s.cfg.overrunPolicy ≠ .wrap)
    have hcursor := hs.cursor b n hb hlive
    rw [if_neg hwrap, hbefore] at hcursor
    rw [hplayed, List.length_append, List.length_singleton, ← hcursor]
    exact hlt
  case cursor =>
    intro _
    simpa [playedBeforeCursor, hplayed, hp] using hs.cursor b n hb hlive

/-- INC_CURSOR counts the sample just played. -/
theorem incCursor_counts {s t : State} (hpol : s.cfg.overrunPolicy ≠ .unchecked) (hi : s.Inv) (hs : s.Plays)
    (hp : s.phase = .d) (hsame : SamePlayback s t) (hcursor : t.cursor = nextCursor s) (ht : t.phase = .e) :
    CursorCounts t := by
  intro b n hb _
  rw [hsame.buffer] at hb
  have hlen : s.bufLen = some n := (bufferHeld_some.mp hb).2
  have hlt : s.cursor < n := hi.cursor_lt hpol (.inr hp) hb
  have hbefore : playedBeforeCursor s + 1 = playedBeforeCursor t := by
    have := hs.written hp
    simp only [playedBeforeCursor, hp, ht, hsame.played]
    simp
    omega
  rw [hsame.cfg, hcursor, ← hbefore]
  have hcount := hs.cursor b n hb (live_of_phase hp nofun)
  split at hcount
  next hwrap =>
    rw [if_pos hwrap, nextCursor_wrap hwrap hlen, succ_mod_length (hcount ▸ hlt), hcount]
  next hwrap =>
    have := hi.fits.len_lt_cursor hlen
    rw [if_neg hwrap, nextCursor_modular hwrap, ← hcount, Nat.mod_eq_of_lt (by omega)]

theorem Performs.plays {i : Instr} {s t : State} (h : Performs i s t) (hpol : s.cfg.overrunPolicy ≠ .unchecked)
    (hi : s.Inv) (hs : s.Plays) : t.Plays := by
  cases h with
  | start hp => exact start_plays hp _ _
  | stop hp =>
    have hnotLive : ¬ live (stopPlayback s) := by simp [live, hp]
    exact hs.of_same ⟨rfl, rfl, rfl, played_emit _ _⟩ (fun _ _ _ hl => absurd hl hnotLive) (by simp)
      fun _ _ _ _ hc => by simp [hp] at hc
  | scOverflow => exact hs.frame ⟨rfl, rfl, rfl, played_emitIfTickLost s⟩ rfl id Iff.rfl hs.sample
  | scCount | pwPeriodEnd | pwCount => exact { hs with }
  | isrEntry hp _ hie =>
    exact hs.frame ⟨rfl, rfl, rfl, played_emit _ _⟩ rfl (fun _ => .inl hie) (by simp [hp]) nofun
  | diagToggle hp =>
    exact hs.frame ⟨rfl, rfl, rfl, rfl⟩ rfl (fun _ => live_of_phase hp nofun) (by simp [hp]) nofun
  | loadSample hp hb =>
    refine hs.frame ⟨rfl, rfl, rfl, rfl⟩ rfl (fun _ => live_of_phase hp nofun) (by simp [hp]) fun b n v hb' _ hv => ?_
    cases hb.symm.trans hb'
    exact (Option.some.inj hv).symm
  | autostop hp =>
    exact hs.frame ⟨rfl, rfl, rfl, played_emit _ _⟩ rfl (fun _ => live_of_phase hp nofun) (by simp [hp]) nofun
  | overrunRead _ _ _ _ hunchecked => exact absurd hunchecked hpol
  | writeCmp hp hv => exact writeCmp_plays hpol hi hs hp hv
  | incCursor hp =>
    exact hs.of_same ⟨rfl, rfl, rfl, rfl⟩ (incCursor_counts hpol hi hs hp ⟨rfl, rfl, rfl, rfl⟩ rfl rfl) nofun nofun
  | clearOvf hp =>
    exact hs.frame ⟨rfl, rfl, rfl, rfl⟩ rfl (fun _ => live_of_phase hp nofun) (by simp [hp]) nofun
  | reti hp =>
    exact hs.frame ⟨rfl, rfl, rfl, rfl⟩ rfl (fun _ => live_of_phase hp nofun) (by simp [hp]) nofun

theorem exec_plays {i : Instr} {s t : State} (hpol : s.cfg.overrunPolicy ≠ .unchecked) (hi : s.Inv) (hs : s.Plays)
    (h : exec i s = .next t) : t.Plays := by
  obtain ⟨-, hperf | ⟨r, -, rfl⟩⟩ := exec_next.mp h
  · exact hperf.plays hpol hi hs
  · exact { hs with }

/-- Settles O53: the two invariants together, which every operation keeps. -/
theorem stepKeepsPlaybackOrder : Obligations.StepKeepsPlaybackOrder := by
  intro s t hpol hi hs h
  obtain ⟨-, -, ht⟩ : t.cfg.overrunPolicy ≠ .unchecked ∧ t.Inv ∧ t.Plays := by
    refine step_keeps (P := fun s => s.cfg.overrunPolicy ≠ .unchecked ∧ s.Inv ∧ s.Plays)
      (fun s turns draws ⟨hpol, hi, hs⟩ => ⟨hpol, hi.own turns draws, { hs with }⟩)
      (fun i s t ⟨hpol, hi, hs⟩ h => ⟨?_, exec_inv hi h, exec_plays hpol hi hs h⟩)
      (fun w s t ⟨hpol, hi, hs⟩ h => ⟨?_, execIllegal_inv hi h, ?_⟩) ⟨hpol, hi, hs⟩ h
    · rwa [(exec_sameLaunch h).1]
    · rwa [(execIllegal_sameLaunch h).1]
    · obtain ⟨-, -, rfl⟩ := execIllegal_next.mp h
      exact { hs with }
  exact ht

/-- Nothing has been played right after reset. -/
theorem launched_plays (cfg : Config) (mem : Memory) (turns : List Turn) (draws : Nat) :
    (State.launched cfg mem turns draws).Plays where
  noBuffer _ := rfl
  bytes := nofun
  bound := nofun
  cursor := nofun
  written := nofun
  sample := nofun

/-- Every run plays in order under the three policies that never read past the end. -/
theorem reachable_plays {s : State} (h : Reachable s) : s.cfg.overrunPolicy ≠ .unchecked → s.Plays := by
  induction h with
  | launch cfg mem turns draws => exact fun _ => launched_plays cfg mem turns draws
  | @step s t hs hstep ih =>
    rw [(step_sameLaunch hstep).1]
    exact fun hpol => stepKeepsPlaybackOrder s t hpol (reachable_inv hs) (ih hpol) hstep

/-- Settles O54: the invariant lists the values written, of which the k-th is read off. -/
theorem runsPlayBufferInOrder : Obligations.RunsPlayBufferInOrder := by
  intro s base len h hpol hb
  have hs := reachable_plays h hpol
  refine ⟨fun k v hk => ?_, hs.bound base len hb⟩
  rw [hs.bytes base len hb, List.getElem?_map, Option.map_eq_some_iff] at hk
  obtain ⟨j, hj, rfl⟩ := hk
  obtain ⟨-, rfl⟩ := List.getElem?_eq_some_iff.mp hj
  rw [List.getElem_range]

end Sys2Proof.Machine

/-! PROOFS. Who writes what: the fields, the phase, the interrupt's controls, the history and the faults, each read off
the inversion of `exec` (10_state.md section 1, 60_exceptions.md R201 and R204). -/

namespace Sys2Proof.Machine

/-! ### The fields, and the phase -/

/-- Settles O45: a fault writes nothing but the faults, and the write an operation performs names its fields. -/
theorem fieldWriters : Obligations.FieldWriters := by
  intro i s t h
  obtain ⟨-, hperf | ⟨r, -, rfl⟩⟩ := exec_next.mp h
  · cases hperf <;> simp [mnemonic, Instr.agent, stopPlayback]
  · simp

/-- A step of another agent than the tick sequencer leaves the phase (10_state.md R27). -/
theorem Performs.phase_kept {i : Instr} {s t : State} (h : Performs i s t) (hi : i.agent ≠ .ts) :
    t.phase = s.phase := by
  cases h with
  | start | stop | scOverflow | scCount | pwPeriodEnd | pwCount => rfl
  | _ => exact absurd rfl hi

/-- Settles O32: without a fault each step of the sequencer enters the phase after its own. -/
theorem phaseTransitions : Obligations.PhaseTransitions := by
  intro i s t h
  refine ⟨fun hraised => ?_, fun hf => (exec_performs h hf).phase_kept, fun hf hts => ?_⟩
  · obtain ⟨r, -, rfl⟩ := exec_raises h hraised
    rfl
  · cases exec_performs h hf with
    | autostop hp _ _ _ hpol => exact .inr ⟨rfl, hp, rfl, hpol⟩
    | start | stop | scOverflow | scCount | pwPeriodEnd | pwCount => cases hts
    | isrEntry hp | diagToggle hp | loadSample hp | overrunRead hp | writeCmp hp | incCursor hp | clearOvf hp
    | reti hp => exact .inl (by simp [hp])

/-- Settles O37: two writes name the latch, and START's takes the initial value only if the PWM was stopped. -/
theorem compareLatch : Obligations.CompareLatch := by
  intro i s t h hne
  obtain ⟨-, hperf | ⟨r, -, rfl⟩⟩ := exec_next.mp h
  · cases hperf with
    | start =>
      have hoff : s.pwEn = false := by simpa using fun hon : s.pwEn = true => hne (if_pos hon)
      exact .inr ⟨rfl, hoff, by simp [hoff]⟩
    | pwPeriodEnd _ _ htop => exact .inl ⟨rfl, htop, rfl, rfl⟩
    | _ => exact absurd rfl hne
  · exact absurd rfl hne

/-! ### The interrupt's controls -/

section

variable {i : Instr} {s t : State} (h : exec i s = .next t)
include h

theorem exec_scOvf_set (hs : s.scOvf = false) (ht : t.scOvf = true) : i = .scClk ∧ s.scCnt = s.scPer ∧ t.scCnt = 0 := by
  obtain ⟨-, hperf | ⟨r, -, rfl⟩⟩ := exec_next.mp h
  · cases hperf with
    | scOverflow _ _ htop => exact ⟨rfl, htop, rfl⟩
    | clearOvf => cases ht
    | _ => cases hs.symm.trans ht
  · cases hs.symm.trans ht

theorem exec_scOvf_cleared (hs : s.scOvf = true) (ht : t.scOvf = false) : i = .clearOvf := by
  obtain ⟨-, hperf | ⟨r, -, rfl⟩⟩ := exec_next.mp h
  · cases hperf with
    | clearOvf => rfl
    | scOverflow => cases ht
    | _ => cases hs.symm.trans ht
  · cases hs.symm.trans ht

theorem exec_scOvfie_set (hs : s.scOvfie = false) (ht : t.scOvfie = true) : mnemonic i = "START" := by
  obtain ⟨-, hperf | ⟨r, -, rfl⟩⟩ := exec_next.mp h
  · cases hperf with
    | start => rfl
    | stop | autostop => cases ht
    | _ => cases hs.symm.trans ht
  · cases hs.symm.trans ht

theorem exec_scOvfie_cleared (hs : s.scOvfie = true) (ht : t.scOvfie = false) :
    i = .stop ∨ i = .loadSample ∧ s.cfg.overrunPolicy = .autostop ∧ t.phase = .e := by
  obtain ⟨-, hperf | ⟨r, -, rfl⟩⟩ := exec_next.mp h
  · cases hperf with
    | stop => exact .inl rfl
    | autostop _ _ _ _ hpol => exact .inr ⟨rfl, hpol, rfl⟩
    | start => cases ht
    | _ => cases hs.symm.trans ht
  · cases hs.symm.trans ht

theorem exec_gie_set (hs : s.gie = false) (ht : t.gie = true) : mnemonic i = "START" ∨ i = .reti := by
  obtain ⟨-, hperf | ⟨r, -, rfl⟩⟩ := exec_next.mp h
  · cases hperf with
    | start => exact .inl rfl
    | reti => exact .inr rfl
    | isrEntry => cases ht
    | _ => cases hs.symm.trans ht
  · cases hs.symm.trans ht

theorem exec_gie_cleared (hs : s.gie = true) (ht : t.gie = false) : i = .isrEntry := by
  obtain ⟨-, hperf | ⟨r, -, rfl⟩⟩ := exec_next.mp h
  · cases hperf with
    | isrEntry => rfl
    | start | reti => cases ht
    | _ => cases hs.symm.trans ht
  · cases hs.symm.trans ht

end

/-- ISR_ENTRY is taken exactly where all three bits are set and the sequencer is idle (60_exceptions.md R204). -/
theorem isrEntry_taken {s : State} : (∃ t, exec .isrEntry s = .next t) ↔
    s.faults = [] ∧ s.scOvf = true ∧ s.scOvfie = true ∧ s.gie = true ∧ s.phase = .idle := by
  constructor
  · rintro ⟨t, h⟩
    obtain ⟨hf, ⟨hp, hgie, hie, hovf⟩, -⟩ := execIsrEntry_next.mp h
    exact ⟨hf, hovf, hie, hgie, hp⟩
  · rintro ⟨hf, hovf, hie, hgie, hp⟩
    exact ⟨_, exec_of_performs hf (.isrEntry hp hgie hie hovf)⟩

/-- Settles O46: each control has its one setter and its clearers. -/
theorem interruptControls : Obligations.InterruptControls := by
  refine ⟨fun i s t h => ⟨exec_scOvf_set h, exec_scOvf_cleared h, exec_scOvfie_set h, exec_scOvfie_cleared h,
    exec_gie_set h, exec_gie_cleared h, fun hf => ?_⟩, fun _ => isrEntry_taken⟩
  cases exec_performs h hf with
  | start => exact ⟨rfl, rfl⟩
  | stop | isrEntry | clearOvf | reti => rfl
  | scOverflow => exact fun _ => rfl
  | scCount _ _ hbelow => exact fun htop => absurd htop hbelow
  | loadSample _ hb _ hin =>
    intro _ n hn hpast
    cases (bufferHeld_some.mp hb).2.symm.trans hn
    exact absurd hpast hin.not_ge
  | autostop => exact fun _ _ _ _ => rfl
  | overrunRead _ _ _ _ hunchecked => exact fun hpol => by cases hpol.symm.trans hunchecked
  | pwPeriodEnd | pwCount | diagToggle | writeCmp | incCursor => trivial

/-! ### The history -/

/-- Settles O47: a fault writes no event, and the write an operation performs names its event. -/
theorem eventsEmitted : Obligations.EventsEmitted := by
  intro i s t h
  refine ⟨fun hraised => ?_, fun hf => ?_⟩
  · obtain ⟨r, -, rfl⟩ := exec_raises h hraised
    rfl
  · cases exec_performs h hf with
    | start => exact ⟨_, _, rfl, rfl, rfl⟩
    | scOverflow =>
      rcases hpending : pending s with _ | _
      · exact .inl (by simp [hpending])
      · exact .inr (by simp [hpending])
    | scCount | loadSample => exact .inl rfl
    | overrunRead _ _ _ _ hpol => exact .inr (.inl ⟨hpol, rfl⟩)
    | autostop _ _ _ _ hpol => exact .inr (.inr ⟨hpol, rfl⟩)
    | stop | pwPeriodEnd | pwCount | isrEntry | diagToggle | writeCmp | incCursor | clearOvf | reti => rfl

/-- Settles O22: SC_CLK at TOP runs only if no overflow is pending, and no other operation loses a tick. -/
theorem noTickLossAssumed : Obligations.NoTickLossAssumed := by
  intro i s t hassume h
  obtain ⟨-, hperf | ⟨r, -, rfl⟩⟩ := exec_next.mp h
  · cases hperf with
    | scOverflow _ _ _ hheld => simp [hheld hassume]
    | start | stop | isrEntry | autostop | overrunRead | writeCmp => simp [stopPlayback]
    | scCount | pwPeriodEnd | pwCount | diagToggle | loadSample | incCursor | clearOvf | reti => rfl
  · rfl

/-! ### The faults -/

/-- Settles O48: each cause of a fault is a row of the table. -/
theorem faultTable : Obligations.FaultTable := by
  intro i s t h hraised
  obtain ⟨r, hraise, rfl⟩ := exec_raises h hraised
  refine ⟨r, rfl, ?_⟩
  cases hraise with
  | illegalStart _ hrange => exact ⟨rfl, hrange, rfl⟩
  | scMode _ _ hmode => exact .inl ⟨rfl, rfl, hmode⟩
  | pwMode _ hmode => exact .inr ⟨rfl, rfl, hmode⟩
  | noBuffer _ hb => exact ⟨rfl, rfl, bufferHeld_none.mp hb⟩
  | nullBuffer _ hb => exact ⟨rfl, rfl, (bufferHeld_some.mp hb).1⟩
  | overrun _ hb _ hpast hpol =>
    have hlen := (bufferHeld_some.mp hb).2
    refine ⟨rfl, rfl, ⟨_, hlen, hpast⟩, hpol.imp_right fun hwrap => ⟨hwrap, fun hi => ?_⟩⟩
    exact hi.handler.wrap_overrun_empty hwrap hlen hpast
  | memRange _ hb _ _ hrange => exact ⟨rfl, _, (bufferHeld_some.mp hb).1, rfl, hrange⟩
  | unwritten _ hnone => exact ⟨rfl, rfl, hnone⟩

end Sys2Proof.Machine

/-! PROOFS. After a STOP: a second one, and any operations but START (43_lifecycle.md R174, 95_test_vectors.md L1-5). -/

namespace Sys2Proof.Machine

/-- Settles O17: STOP writes fixed values, so writing them again changes nothing. -/
theorem stopIdempotent : Obligations.StopIdempotent := by
  intro s t h
  obtain ⟨hf, hp, rfl⟩ := execStop_next.mp h
  exact execStop_next.mpr ⟨hf, hp, rfl⟩

/-- What every operation of a trace keeps, the trace keeps. -/
theorem execAll_keeps {P : State → Prop} {ops : List Instr} (hstep : ∀ i ∈ ops, ∀ s t, P s → exec i s = .next t → P t)
    {s t : State} (hs : P s) (h : execAll ops s = .next t) : P t := by
  induction ops generalizing s with
  | nil => exact next_eq.mp h ▸ hs
  | cons i rest ih =>
    obtain ⟨u, hu, hrest⟩ := execAll_cons_next.mp h
    exact ih (fun j hj => hstep j (.tail i hj)) (hstep i (.head rest) s u hs hu) hrest

/-- The sequencer is idle, both interrupt and PWM are off, and nothing has been played or output since `s`. -/
structure Silenced (s u : State) : Prop where
  cursor : u.cursor = 0
  pwCmp : u.pwCmp = s.pwCmp
  pwCmpAct : u.pwCmpAct = s.pwCmpAct
  pwCnt : u.pwCnt = s.pwCnt
  phase : u.phase = .idle
  interruptOff : u.scOvfie = false
  pwmOff : u.pwEn = false
  portLow : u.outLvl = false
  outDir : u.outDir = s.outDir
  played : played u = played s

theorem stop_silenced {s : State} (hp : s.phase = .idle) : Silenced s (stopPlayback s) :=
  ⟨rfl, rfl, rfl, rfl, hp, rfl, rfl, rfl, rfl, played_emit _ _⟩

/-- Only STOP and SC_CLK can be taken then, and neither plays. -/
theorem Silenced.performs {s u v : State} {i : Instr} (hu : Silenced s u) (hi : mnemonic i ≠ "START")
    (h : Performs i u v) : Silenced s v := by
  cases h with
  | start => exact absurd rfl hi
  | stop => exact { hu with
      cursor := rfl, interruptOff := rfl, pwmOff := rfl, portLow := rfl, played := (played_emit _ _).trans hu.played }
  | scOverflow => exact { hu with played := (played_emitIfTickLost u).trans hu.played }
  | scCount => exact { hu with }
  | pwPeriodEnd on | pwCount on => cases hu.pwmOff.symm.trans on
  | isrEntry _ _ hie => cases hu.interruptOff.symm.trans hie
  | diagToggle hp | loadSample hp | autostop hp | overrunRead hp | writeCmp hp | incCursor hp | clearOvf hp | reti hp =>
    cases hu.phase.symm.trans hp

theorem Silenced.exec {s u v : State} {i : Instr} (hu : Silenced s u) (hi : mnemonic i ≠ "START")
    (h : exec i u = .next v) : Silenced s v := by
  obtain ⟨-, hperf | ⟨r, -, rfl⟩⟩ := exec_next.mp h
  · exact hu.performs hi hperf
  · exact { hu with }

/-- Settles O18: STOP silences the block, and every operation but START keeps it silent. -/
theorem noPlaybackAfterStop : Obligations.NoPlaybackAfterStop := by
  intro s t u ops hstop hops h
  obtain ⟨-, hp, rfl⟩ := execStop_next.mp hstop
  have hu : Silenced s u :=
    execAll_keeps (fun i hi _ _ hs => hs.exec (hops i hi)) (stop_silenced hp) h
  have hstopped : playback u = .stopped := by simp only [playback, hu.interruptOff, hu.pwmOff]
  refine ⟨hu.cursor, hu.pwCmp, hu.pwCmpAct, hu.pwCnt, hu.phase, hstopped, hu.played, ?_⟩
  rw [audioPin_of_pwm_disabled hu.pwmOff, hu.outDir, hu.portLow]
  rfl

end Sys2Proof.Machine

/-! PROOFS. Steps: the operation a scheduled word names is the one that runs, and a placed word always runs
(00_scope.md section 4, 30_encoding.md R80, R84). -/

namespace Sys2Proof.Machine

theorem isHostCommand_iff {i : Instr} : i.isHostCommand = true ↔ i.agent = .h := decide_eq_true_iff

/-- A turn runs the operation its word names, if its issuer is the one who takes such operations. -/
theorem takeTurn_decoded {turn : Turn} {s : State} {i : Instr} (hdec : decodeHere s turn.word = .ok i)
    (hissuer : turn.issuer = .host ↔ i.agent = .h) : takeTurn turn s = exec i s := by
  rw [← isHostCommand_iff] at hissuer
  obtain ⟨issuer, w⟩ := turn
  cases issuer with
  | host => exact hostTurn_command hdec (hissuer.mp rfl)
  | block =>
    have hlabel : i.isHostCommand = false := Bool.eq_false_iff.mpr fun hcmd => nomatch hissuer.mpr hcmd
    rw [takeTurn, blockTurn, hdec]
    simp [hlabel]

theorem step_scheduled {s : State} {turn : Turn} {rest : List Turn} (hf : s.faults = [])
    (hsched : s.schedule = turn :: rest) : step s = takeTurn turn { s with schedule := rest } := by
  simp only [step, nextStep, hf, hsched, popTurn, List.tail_cons]

theorem step_drawn {s : State} (hf : s.faults = []) (hsched : s.schedule = []) : step s = takeDrawnTurn s := by
  simp only [step, nextStep, hf, hsched]

/-- Settles O9: a step takes the first scheduled turn, or a drawn one whose refusal leaves the draw counted. -/
theorem stepRunsDecoded : Obligations.StepRunsDecoded := by
  refine ⟨fun s turn rest i hf hsched hdec hissuer => ?_, fun s hf hsched => ⟨fun u h => ?_, fun r h => ?_⟩⟩
  · exact (step_scheduled hf hsched).trans (takeTurn_decoded hdec hissuer)
  all_goals
    rw [step_drawn hf hsched, takeDrawnTurn, advanceDraws, h]

/-- LOAD_SAMPLE in its phase always answers a next state: each of its cases raises a fault or goes on. -/
theorem loadSample_answers (s : State) : ∃ t, loadSample s = .next t := by
  unfold loadSample
  split
  · exact ⟨_, rfl⟩
  · split_ifs
    · exact ⟨_, rfl⟩
    · unfold overrun
      split <;> exact ⟨_, rfl⟩
    · unfold loadInBuffer
      split <;> exact ⟨_, rfl⟩

/-- Placing SC_CLK lifts the hold of an overflow, by clearing the flag that is pending (41_sample_clock.md R103). -/
theorem overflowHeld_enable (s : State) : overflowHeld (enable .scClk s) = false := by
  cases hheld : overflowHeld { s with faults := [] } with
  | false =>
    have hkept : (enable .scClk s).scOvf = s.scOvf := by simp [enable, hheld]
    rw [← hheld]
    simp only [overflowHeld, pending, hkept]
    rfl
  | true =>
    have hcleared : (enable .scClk s).scOvf = false := by simp [enable, hheld]
    simp [overflowHeld, pending, hcleared]

/-- An operation whose guard has been made true answers a next state (00_scope.md R12). -/
theorem exec_enable_answers {i : Instr} {s : State} (hwf : i.wf s.cfg.addrW s.cfg.lenW = true) :
    ∃ t, exec i (enable i s) = .next t := by
  cases i with
  | start base len =>
    obtain ⟨hbase, hlen⟩ := start_in_range.mp hwf
    exact ⟨_, exec_of_performs rfl (.start rfl hbase hlen)⟩
  | scClk => exact ⟨_, execScClk_next.mpr ⟨rfl, ⟨rfl, overflowHeld_enable s⟩, rfl⟩⟩
  | pwmClk => exact ⟨_, execPwmClk_next.mpr ⟨rfl, rfl, rfl⟩⟩
  | loadSample =>
    obtain ⟨t, ht⟩ := loadSample_answers (enable .loadSample s)
    exact ⟨t, execLoadSample_next.mpr ⟨rfl, rfl, ht⟩⟩
  | writeCmp =>
    cases hsample : s.sampleTmp with
    | none => exact ⟨_, exec_of_raises rfl (.unwritten rfl hsample)⟩
    | some v => exact ⟨_, exec_of_performs rfl (.writeCmp rfl hsample)⟩
  | stop => exact ⟨_, exec_of_performs rfl (.stop rfl)⟩
  | isrEntry => exact ⟨_, exec_of_performs rfl (.isrEntry rfl rfl rfl rfl)⟩
  | diagToggle => exact ⟨_, exec_of_performs rfl (.diagToggle rfl)⟩
  | incCursor => exact ⟨_, exec_of_performs rfl (.incCursor rfl)⟩
  | clearOvf => exact ⟨_, exec_of_performs rfl (.clearOvf rfl)⟩
  | reti => exact ⟨_, exec_of_performs rfl (.reti rfl)⟩

theorem enable_cfg (i : Instr) (s : State) : (enable i s).cfg = s.cfg := by
  cases i <;> rfl

theorem enable_faults (i : Instr) (s : State) : (enable i s).faults = [] := by
  cases i <;> rfl

theorem enable_schedule (i : Instr) (s : State) : (enable i s).schedule = s.schedule := by
  cases i <;> rfl

/-- The turn that takes an operation is the host's exactly for a host command. -/
theorem ofInstr_issuer (i : Instr) : (Turn.ofInstr i).issuer = .host ↔ i.agent = .h := by
  rw [← isHostCommand_iff, Turn.ofInstr]
  cases i.isHostCommand <;> simp

/-- Placing the word of a well-formed operation schedules its turn first, in the state its guard asks for. -/
theorem placeWord_encode {i : Instr} {s : State} (hwf : i.wf s.cfg.addrW s.cfg.lenW = true) :
    placeWord (encode i) s = { enable i s with schedule := Turn.ofInstr i :: s.schedule } := by
  rw [placeWord, decodeHere, decodeOfEncode _ _ i hwf]
  rfl

theorem withFetchWord_toNat (w : Word) (s : State) : s.withFetchWord 64 w.toNat = placeWord w s := by
  rw [State.withFetchWord, Nat.mod_eq_of_lt w.isLt, BitVec.ofNat_toNat, BitVec.setWidth_eq]

/-- Settles O10: the placed turn is the next one, and the operation it names runs where its guard holds. -/
theorem placedOperationRuns : Obligations.PlacedOperationRuns := by
  intro s i hwf
  obtain ⟨t, ht⟩ := exec_enable_answers hwf
  refine ⟨t, ?_, ht⟩
  have hdec : decodeHere (enable i s) (encode i) = .ok i := by
    rw [decodeHere, enable_cfg]
    exact decodeOfEncode _ _ i hwf
  calc step (s.withFetchWord 64 (encode i).toNat)
      = step { enable i s with schedule := Turn.ofInstr i :: s.schedule } := by
        rw [withFetchWord_toNat, placeWord_encode hwf]
    _ = takeTurn (Turn.ofInstr i) { enable i s with schedule := s.schedule } := step_scheduled (enable_faults i s) rfl
    _ = takeTurn (Turn.ofInstr i) (enable i s) := by rw [← enable_schedule i s]
    _ = exec i (enable i s) := takeTurn_decoded hdec (ofInstr_issuer i)
    _ = .next t := ht

end Sys2Proof.Machine

/-! PROOFS. Sample memory reads as what it lists (20_memory.md R60, R62). -/

namespace Sys2Proof.Machine

/-- In canonical form every listed address is at or above the form's lower bound. -/
theorem Memory.le_of_mem_wfFrom {lo : Nat} {m : Memory} {addr : Nat} {v : Byte} (h : Memory.wfFrom lo m = true)
    (hmem : (addr, v) ∈ m) : lo ≤ addr := by
  induction m generalizing lo with
  | nil => cases hmem
  | cons cell rest ih =>
    simp only [Memory.wfFrom, Bool.and_eq_true, decide_eq_true_eq] at h
    obtain ⟨⟨hle, -⟩, hrest⟩ := h
    obtain rfl | hmem := List.mem_cons.mp hmem
    · exact hle
    · have := ih hrest hmem
      omega

/-- In canonical form an address is listed once, so a listed byte is the one read. -/
theorem Memory.read_listed {lo : Nat} {m : Memory} {addr : Nat} {v : Byte} (h : Memory.wfFrom lo m = true)
    (hmem : (addr, v) ∈ m) : Memory.read m addr = v := by
  induction m generalizing lo with
  | nil => cases hmem
  | cons cell rest ih =>
    obtain ⟨a, w⟩ := cell
    simp only [Memory.wfFrom, Bool.and_eq_true, decide_eq_true_eq] at h
    obtain ⟨-, hrest⟩ := h
    obtain heq | hmem := List.mem_cons.mp hmem
    · cases heq
      exact if_pos rfl
    · have hlt := Memory.le_of_mem_wfFrom hrest hmem
      rw [Memory.read, if_neg (by omega)]
      exact ih hrest hmem

theorem Memory.read_unlisted {m : Memory} {addr : Nat} (h : ∀ v, (addr, v) ∉ m) :
    Memory.read m addr = Memory.unlisted := by
  induction m with
  | nil => rfl
  | cons cell rest ih =>
    obtain ⟨a, w⟩ := cell
    have hne : addr ≠ a := fun heq => h w (heq ▸ .head rest)
    rw [Memory.read, if_neg hne]
    exact ih fun v hmem => h v (.tail _ hmem)

/-- Settles O58: a listed byte by the canonical form, an unlisted one in any list. -/
theorem memoryReadsListed : Obligations.MemoryReadsListed := by
  refine ⟨fun m hwf => ⟨fun addr v => Memory.read_listed hwf, fun addr => Memory.read_unlisted⟩, ?_⟩
  intro s addr v hwf hmem hlt
  rw [memRead_eq, if_pos hlt, Memory.read_listed hwf hmem]

end Sys2Proof.Machine

/-! PROOFS. The effect of each operation, case by case: its guard, its faults and its write (43_lifecycle.md R171,
41_sample_clock.md R102 to R111, 42_duty_cycle_output.md R142 to R144). -/

namespace Sys2Proof.Machine

/-! ### START -/

/-- START's word is its three fields (30_encoding.md R80, R82). -/
theorem encode_start (base : BitVec 32) (len : BitVec 24) :
    encode (.start base len) = BitVec.ofNat 64 (0x01 * 2 ^ 56 + len.toNat * 2 ^ 32 + base.toNat) := by
  obtain ⟨hopc, hlen, hbase⟩ := Laws.Fields.start base len
  replace hopc : (encode (.start base len)).toNat / 2 ^ 56 = 0x01 := (opc_eq_iff _ 0x01#8).mp hopc
  replace hlen : _ = len.toNat := (len_toNat _).symm.trans (congrArg BitVec.toNat hlen)
  replace hbase : _ = base.toNat := (base_toNat _).symm.trans (congrArg BitVec.toNat hbase)
  apply BitVec.eq_of_toNat_eq
  rw [BitVec.toNat_ofNat]
  omega

/-- Outside phase IDLE a START in range is not enabled (43_lifecycle.md R176). -/
theorem execStart_held {s : State} {base : BitVec 32} {len : BitVec 24} (hf : s.faults = []) (hp : s.phase ≠ .idle)
    (hwf : Instr.wf s.cfg.addrW s.cfg.lenW (.start base len) = true) :
    exec (.start base len) s = .refused (.notEnabled (.start base len)) := by
  rw [exec, execStart, if_pos hwf]
  exact guarded_disabled hf (decide_eq_false hp)

/-- Settles O14: in range START's writes under its guard, out of range its illegal command. -/
theorem startEffect : Obligations.StartEffect := by
  refine fun s base len =>
    ⟨fun hf hbase hlen => ⟨fun hp => ?_, fun hp => ?_⟩, fun hf hp hout => ?_, encode_start base len⟩
  · have hlatch : (if s.pwEn = false then s.cfg.pwInitCmp else s.pwCmpAct) =
        if s.pwEn then s.pwCmpAct else s.cfg.pwInitCmp := by cases s.pwEn <;> rfl
    rw [hlatch]
    exact exec_of_performs hf (.start hp hbase hlen)
  · exact execStart_held hf hp (start_in_range.mpr ⟨hbase, hlen⟩)
  · refine exec_of_raises hf (.illegalStart hp (Bool.eq_false_iff.mpr fun hwf => ?_))
    obtain ⟨hbase, hlen⟩ := start_in_range.mp hwf
    exact hout.elim hbase.not_ge hlen.not_ge

/-! ### SC_CLK -/

theorem pending_iff {s : State} : pending s = true ↔ s.scOvf = true ∧ s.scOvfie = true := Bool.and_eq_true_iff

theorem pending_eq_false_iff {s : State} : pending s = false ↔ s.scOvf = false ∨ s.scOvfie = false :=
  Bool.and_eq_false_iff

/-- The four ways an overflow is not held (41_sample_clock.md R103). -/
theorem overflowHeld_eq_false_iff {s : State} : overflowHeld s = false ↔
    s.cfg.assumeNoTickLoss = false ∨ s.scCnt ≠ s.scPer ∨ s.scOvf = false ∨ s.scOvfie = false := by
  simp only [overflowHeld, scAtTop, pending, Bool.and_eq_false_iff, decide_eq_false_iff_not, or_assoc]

/-- SC_CLK with the timer off, or with its overflow held, is not enabled (41_sample_clock.md R102, R103). -/
theorem execScClk_disabled {s : State} (hf : s.faults = []) (h : s.scEn = false ∨ overflowHeld s = true) :
    exec .scClk s = .refused (.notEnabled .scClk) := by
  refine guarded_disabled hf ?_
  obtain hoff | hheld := h
  · simp [hoff]
  · simp [hheld]

/-- At TOP, not held, SC_CLK returns the counter to 0 and sets the flag, and records a tick lost if one was pending. -/
theorem execScClk_overflow {s : State} (hf : s.faults = []) (hon : s.scEn = true) (hmode : s.scMode = .normal)
    (htop : s.scCnt = s.scPer) (hheld : s.cfg.assumeNoTickLoss = true → pending s = false) :
    exec .scClk s = .next { s with
      scCnt := 0, scOvf := true,
      history := if s.scOvf = true ∧ s.scOvfie = true then s.history ++ [.evTickLost] else s.history } := by
  simp only [← pending_iff]
  exact exec_of_performs hf (.scOverflow hon hmode htop hheld)

/-- Settles O20: the guard, the mode no START leaves, TOP and below it. -/
theorem sampleClockCount : Obligations.SampleClockCount := by
  refine ⟨rfl, fun s hf => ⟨fun hoff => execScClk_disabled hf (.inl hoff), fun hon hfree => ?_⟩⟩
  rw [← overflowHeld_eq_false_iff] at hfree
  refine ⟨fun hmode => ?_, fun hmode htop => ?_, fun hmode hbelow => ?_⟩
  · exact exec_of_raises hf (.scMode hon hfree hmode)
  · exact execScClk_overflow hf hon hmode htop ((overflowHeld_top htop).mp hfree)
  · exact exec_of_performs hf (.scCount hon hmode hbelow)

/-- With the flag or its enable clear an overflow loses no tick, and it is never held. -/
theorem execScClk_overflow_unpending {s : State} (hf : s.faults = []) (hon : s.scEn = true) (hmode : s.scMode = .normal)
    (htop : s.scCnt = s.scPer) (hfree : pending s = false) :
    exec .scClk s = .next { s with scCnt := 0, scOvf := true } := by
  have hnot : ¬ (s.scOvf = true ∧ s.scOvfie = true) := fun h => by cases hfree.symm.trans (pending_iff.mpr h)
  simpa only [if_neg hnot] using execScClk_overflow hf hon hmode htop fun _ => hfree

/-- Settles O21: the overflow merges into the flag, or is held until CLEAR_OVF or STOP makes it no longer pending. -/
theorem lostTicks : Obligations.LostTicks := by
  intro s hf hon hmode htop hovf
  refine ⟨fun hie => ?_, fun hie hassume => ?_, fun hie hassume => ⟨?_, fun hp => ?_, fun hp => ?_⟩⟩
  · rw [execScClk_overflow_unpending hf hon hmode htop (pending_eq_false_iff.mpr (.inr hie)), ← hovf]
  · rw [execScClk_overflow hf hon hmode htop (by simp [hassume]), if_pos ⟨hovf, hie⟩, ← hovf]
  · exact execScClk_disabled hf (.inr (by simp [overflowHeld, hassume, scAtTop, htop, pending, hovf, hie]))
  · exact ⟨_, _, exec_of_performs hf (.clearOvf hp),
      execScClk_overflow_unpending hf hon hmode htop (pending_eq_false_iff.mpr (.inl rfl)), rfl, rfl, rfl⟩
  · exact ⟨_, _, exec_of_performs hf (.stop hp),
      execScClk_overflow_unpending hf hon hmode htop (pending_eq_false_iff.mpr (.inr rfl)), rfl, rfl, rfl⟩

/-! ### The tick sequencer -/

theorem interruptTaken_iff {s : State} : interruptTaken s = true ↔
    s.phase = .idle ∧ s.gie = true ∧ s.scOvfie = true ∧ s.scOvf = true := by
  simp [interruptTaken, and_assoc]

/-- Settles O24: the entry under its guard, and the guard failing. -/
theorem interruptEntry : Obligations.InterruptEntry := by
  refine ⟨rfl, fun s hf => ⟨fun ⟨hp, hgie, hie, hovf⟩ => ?_, fun hnot => ?_⟩⟩
  · exact exec_of_performs hf (.isrEntry hp hgie hie hovf)
  · exact guarded_disabled hf (Bool.eq_false_iff.mpr (mt interruptTaken_iff.mp hnot))

/-- Settles O26: one case for each cause of a fault, each policy that goes on, and the read. -/
theorem loadSampleEffect : Obligations.LoadSampleEffect := by
  refine ⟨rfl, fun s hf => ⟨inPhase_disabled hf, fun hp => ⟨fun hnone => ?_, fun base len hbase hlen => ?_⟩⟩⟩
  · exact exec_of_raises hf (.noBuffer hp (bufferHeld_none.mpr hnone))
  · have hb : bufferHeld s = some (base, len) := bufferHeld_some.mpr ⟨hbase, hlen⟩
    refine ⟨fun hnull => ?_, fun hnull hpast => ⟨fun hpol => ?_, fun hpol => ?_, fun hpol => ?_⟩,
      fun hnull hin => ⟨fun hrange => ?_, fun hrange => ?_⟩⟩
    · exact exec_of_raises hf (.nullBuffer hp (hnull ▸ hb))
    · exact exec_of_raises hf (.overrun hp hb hnull hpast hpol)
    · exact exec_of_performs hf (.autostop hp hb hnull hpast hpol)
    · exact ⟨_, exec_of_performs hf (.overrunRead hp hb hnull hpast hpol)⟩
    · exact exec_of_performs hf (.loadSample hp hb hnull hin hrange)
    · exact exec_of_raises hf (.memRange hp hb hnull hin hrange)

/-- Settles O29: the cursor drawn is narrowed to its width, and the draw is counted. -/
theorem incrementCursorWithoutLength : Obligations.IncrementCursorWithoutLength := by
  intro s hf hp hpol hlen
  have hcursor : nextCursor s = wrap s.cfg.cursorW (Config.drawCursor s.draws) := by
    simp only [nextCursor, hpol, hlen]
  have hdraw : incDraws s = true := by simp [incDraws, hpol, hlen]
  refine ⟨nextCursor s, hcursor ▸ wrap_lt _ _, ?_⟩
  simpa only [hdraw, if_true] using exec_of_performs hf (.incCursor hp)

/-- Settles O31: in phase RET by what RETI leaves, elsewhere by its guard. -/
theorem interruptReturn : Obligations.InterruptReturn :=
  ⟨rfl, fun _ hf => ⟨fun hp => exec_of_performs hf (.reti hp), inPhase_disabled hf⟩⟩

/-! ### PWM_CLK and the audio pin -/

/-- Settles O36: the guard, the mode no START leaves, the end of a period and a count inside it. -/
theorem pwmCount : Obligations.PwmCount := by
  refine ⟨rfl, fun s hf => ⟨execPwmClk_disabled hf, fun hon hmode => ?_, fun hon hmode htop => ?_,
    fun hon hmode hbelow => ?_⟩⟩
  · exact exec_of_raises hf (.pwMode hon hmode)
  · exact exec_of_performs hf (.pwPeriodEnd hon hmode htop)
  · have hcount : BitVec.ofNat 8 (s.pwCnt.toNat + 1) = s.pwCnt + 1 := by simp [BitVec.ofNat_add]
    rw [hcount]
    exact exec_of_performs hf (.pwCount hon hmode hbelow.not_ge)

theorem pwmDrivesPin_iff {s : State} : pwmDrivesPin s = true ↔ s.pwEn = true ∧ s.pwOuten = true ∧ s.route = true := by
  simp [pwmDrivesPin, and_assoc]

theorem audioPin_eq_hiz_iff {s : State} : audioPin s = .hiz ↔ s.outDir = false := by
  unfold audioPin
  cases s.outDir with
  | false => simp
  | true => simp only [if_true]; split_ifs <;> simp

/-- Driven by the PWM, the pin compares the counter with the latch (42_duty_cycle_output.md R144). -/
theorem audioPin_driven {s : State} (hdir : s.outDir = true) (hdrive : pwmDrivesPin s = true) :
    audioPin s = .high ↔ s.pwCnt.toNat < s.pwCmpAct.toNat := by
  rw [audioPin, if_pos hdir, if_pos hdrive, ← BitVec.lt_def]
  split_ifs <;> simp [*]

/-- Else an output follows the port level (42_duty_cycle_output.md R144). -/
theorem audioPin_port {s : State} (hdir : s.outDir = true) (hdrive : ¬ pwmDrivesPin s = true) :
    audioPin s = .high ↔ s.outLvl = true := by
  rw [audioPin, if_pos hdir, if_neg hdrive]
  cases s.outLvl <;> simp

/-- Settles O38: an input is high-impedance, and an output follows the PWM or the port. -/
theorem audioPinLevel : Obligations.AudioPinLevel := fun _ =>
  ⟨audioPin_eq_hiz_iff, fun hdir hdrive => audioPin_driven hdir (pwmDrivesPin_iff.mpr hdrive),
    fun hdir hnot => audioPin_port hdir (mt pwmDrivesPin_iff.mp hnot)⟩

end Sys2Proof.Machine

/-! PROOFS. The state right after reset (70_reset_and_hazards.md R230, R231). -/

namespace Sys2Proof.Machine

/-- Settles O49: the boot state is written out field by field. -/
theorem resetValues : Obligations.ResetValues :=
  ⟨fun _ _ => ⟨rfl, rfl, rfl, rfl, rfl, rfl, rfl, rfl, rfl, rfl, rfl, rfl, rfl, rfl, rfl, rfl, rfl, rfl, rfl, rfl, rfl,
    rfl⟩, rfl⟩

/-- No guard of a counter or of the sequencer holds in the boot state. -/
theorem exec_boot_refused (cfg : Config) (mem : Memory) {i : Instr} (hi : i.agent ≠ .h) :
    exec i (State.boot cfg mem) = .refused (.notEnabled i) := by
  cases i with
  | start | stop => exact absurd rfl hi
  | _ => rfl

/-- Settles O50: after reset the host's guard holds and no other does. -/
theorem onlyHostAfterReset : Obligations.OnlyHostAfterReset := fun cfg mem =>
  ⟨rfl, audioPin_eq_hiz_iff.mpr rfl, fun _ => exec_boot_refused cfg mem, fun _ => hostTurn_enabled.mpr ⟨rfl, rfl⟩⟩

end Sys2Proof.Machine

/-! PROOFS. The lines of a listing (30_encoding.md R88, R89). -/

namespace Sys2Proof.Machine

/-- Settles O57: each line is a constant, and its tokens alone decide what it stands for. -/
theorem assemblerExpansions : Obligations.AssemblerExpansions := fun _ =>
  ⟨rfl, rfl, rfl, rfl, rfl, rfl, rfl, rfl, rfl, rfl, rfl⟩

end Sys2Proof.Machine

/-! PROOFS. Handler runs: the seven steps of a tick, the five of an overrun, and a tick with the counters stepping
between its steps (41_sample_clock.md R104, R114, R115, 43_lifecycle.md R172). -/

namespace Sys2Proof.Machine

/-! ### The parts of a run -/

theorem execAll_cons_of {i : Instr} {rest : List Instr} {s t : State} (h : exec i s = .next t) :
    execAll (i :: rest) s = execAll rest t := by
  rw [execAll, h]

/-- Entry and step (a): the mask, the diagnostic pin and the event (41_sample_clock.md R105, R106). -/
theorem execAll_entry {s : State} (hf : s.faults = []) (hp : s.phase = .idle) (hgie : s.gie = true)
    (hie : s.scOvfie = true) (hovf : s.scOvf = true) (rest : List Instr) :
    execAll (.isrEntry :: .diagToggle :: rest) s = execAll rest { s with
      gie := false, phase := .b, diagLvl := if s.cfg.diagHook = true then !s.diagLvl else s.diagLvl,
      history := s.history ++ [.evTick] } := by
  exact (execAll_cons_of (exec_of_performs hf (.isrEntry hp hgie hie hovf))).trans
    (execAll_cons_of (exec_of_performs hf (.diagToggle rfl)))

/-- Steps (b) and (c) inside the buffer: the sample at the cursor is played (41_sample_clock.md R107, R108). -/
theorem execAll_play {s : State} {b n : Nat} (hf : s.faults = []) (hp : s.phase = .b)
    (hb : bufferHeld s = some (b, n)) (hnull : b ≠ s.cfg.nullAddr) (hin : s.cursor < n)
    (hrange : b + s.cursor < s.cfg.memSize) (rest : List Instr) :
    execAll (.loadSample :: .writeCmp :: rest) s = execAll rest { s with
      sampleTmp := some (Memory.read s.mem (b + s.cursor)), pwCmp := Memory.read s.mem (b + s.cursor), phase := .d,
      history := s.history ++ [.evCmpWrite (Memory.read s.mem (b + s.cursor))] } := by
  exact (execAll_cons_of (exec_of_performs hf (.loadSample hp hb hnull hin hrange))).trans
    (execAll_cons_of (exec_of_performs hf (.writeCmp rfl rfl)))

/-- Inside the buffer the next cursor is one more, or 0 after the last sample under `wrap` (41_sample_clock.md R109). -/
theorem nextCursor_inside {s : State} {n : Nat} (hs : s.Fits) (hn : s.bufLen = some n) (hin : s.cursor < n) :
    nextCursor s = if s.cfg.overrunPolicy = .wrap ∧ s.cursor + 1 = n then 0 else s.cursor + 1 := by
  by_cases hpol : s.cfg.overrunPolicy = .wrap
  · have hlast : n ≤ s.cursor + 1 ↔ s.cursor + 1 = n := by omega
    simp only [nextCursor_wrap hpol hn, hlast, hpol, true_and]
  · have := hs.len_lt_cursor hn
    rw [nextCursor_modular hpol, if_neg fun h => hpol h.1, Nat.mod_eq_of_lt (by omega)]

/-- Step (d) with a length held draws no free value (41_sample_clock.md R109). -/
theorem execAll_count {s : State} {n : Nat} (hf : s.faults = []) (hp : s.phase = .d) (hn : s.bufLen = some n)
    (rest : List Instr) :
    execAll (.incCursor :: rest) s = execAll rest { s with cursor := nextCursor s, phase := .e } :=
  execAll_cons_of (execIncCursor_of_no_draw hf hp (incDraws_eq_false (.inr (by simp [hn]))))

/-- Step (e) and the return (41_sample_clock.md R110, R111). -/
theorem execAll_exit {s : State} (hf : s.faults = []) (hp : s.phase = .e) :
    execAll [.clearOvf, .reti] s = .next { s with scOvf := false, gie := true, sampleTmp := none, phase := .idle } := by
  refine Eq.trans (execAll_cons_of (exec_of_performs hf (.clearOvf hp))) ?_
  exact execAll_cons_of (exec_of_performs hf (.reti rfl))

/-- The handler once entered, inside the buffer: one sample is played and the cursor moves. -/
theorem execAll_handler {s : State} {b n : Nat} (hs : s.Fits) (hf : s.faults = []) (hb : bufferHeld s = some (b, n))
    (hnull : b ≠ s.cfg.nullAddr) (hin : s.cursor < n) (hrange : b + s.cursor < s.cfg.memSize) :
    execAll [.diagToggle, .loadSample, .writeCmp, .incCursor, .clearOvf, .reti] (emit .evTick (enterInterrupt s)) =
      .next { s with
        pwCmp := Memory.read s.mem (b + s.cursor),
        cursor := if s.cfg.overrunPolicy = .wrap ∧ s.cursor + 1 = n then 0 else s.cursor + 1,
        diagLvl := if s.cfg.diagHook = true then !s.diagLvl else s.diagLvl,
        scOvf := false, gie := true, sampleTmp := none, phase := .idle,
        history := s.history ++ [.evTick, .evCmpWrite (Memory.read s.mem (b + s.cursor))] } := by
  have hn : s.bufLen = some n := (bufferHeld_some.mp hb).2
  have hcursor : nextCursor s = _ := nextCursor_inside hs hn hin
  rw [execAll_cons_of (exec_of_performs (s := emit .evTick (enterInterrupt s)) hf (.diagToggle rfl)),
    execAll_play (b := b) (n := n), execAll_count (n := n), execAll_exit, ← hcursor,
    List.append_cons s.history .evTick [.evCmpWrite _]]
  exacts [rfl, hf, rfl, hf, rfl, hn, hf, rfl, hb, hnull, hin, hrange]

/-! ### Runs with nothing between the steps -/

/-- Settles O34: the entry, then the handler. -/
theorem handlerRunCompletes : Obligations.HandlerRunCompletes := by
  intro s b n hs hf hp hgie hie hovf hb hnull hin hrange
  rw [Pseudo.expand, execAll_cons_of (exec_of_performs hf (.isrEntry hp hgie hie hovf)),
    execAll_handler hs hf hb hnull hin hrange]
  simp [hp, hgie]

/-- Settles O35: the overrun takes the place of the read and the two steps after it, and disables the interrupt. -/
theorem autoStopRun : Obligations.AutoStopRun := by
  intro s b n hf hp hgie hie hovf hon hpol hb hnull hpast
  refine ⟨_, ?_, rfl, ?_, guarded_disabled hf (by simp [interruptTaken])⟩
  · refine Eq.trans (execAll_entry hf hp hgie hie hovf _) ?_
    refine Eq.trans (execAll_cons_of (exec_of_performs hf (.autostop rfl hb hnull hpast hpol))) ?_
    refine Eq.trans (execAll_exit hf rfl) ?_
    simp [emit, hp, hgie]
  · exact playback_drained.mpr ⟨rfl, hon⟩

/-- Settles O19: START leaves the cursor at 0 and the flag set, so the interrupt plays the new buffer's first byte. -/
theorem restartPlaysNewBuffer : Obligations.RestartPlaysNewBuffer := by
  intro s base len hf hp hovf hbase hlen hnull hpos hrange
  refine ⟨?last, ?run, ?effect⟩
  case run =>
    rw [execAll_cons_of (exec_of_performs hf (.start hp hbase hlen)),
      execAll_entry (s := startPlayback base.toNat len.toNat s) hf hp rfl rfl hovf,
      execAll_play (b := base.toNat) (n := len.toNat)]
    exacts [rfl, hf, rfl, rfl, hnull, hpos, hrange]
  case effect => exact ⟨hf, rfl, rfl, by simp [played, playedStep]⟩

/-! ### Runs with the counters stepping between the steps -/

/-- The steps of the tick sequencer in a trace. -/
def sequencerSteps (ops : List Instr) : List Instr := ops.filter fun i => decide (i.agent = .ts)

theorem sequencerSteps_cons_of_ts {i : Instr} (h : i.agent = .ts) (rest : List Instr) :
    sequencerSteps (i :: rest) = i :: sequencerSteps rest := by
  simp [sequencerSteps, h]

theorem sequencerSteps_cons_of_ne {i : Instr} (h : i.agent ≠ .ts) (rest : List Instr) :
    sequencerSteps (i :: rest) = sequencerSteps rest := by
  simp [sequencerSteps, h]

theorem isrEntry_not_mem_of_sequencerSteps {ops : List Instr} (h : .isrEntry ∉ sequencerSteps ops) :
    .isrEntry ∉ ops := fun hmem => h (List.mem_filter.mpr ⟨hmem, rfl⟩)

/-- A history without its lost ticks. -/
def withoutLostTicks (es : List Event) : List Event := es.filter fun e => decide (e ≠ .evTickLost)

/-- `s` with the counters' own fields at fixed values, and no lost tick in its history: what a count leaves. -/
def State.eraseCounts (s : State) : State :=
  { s with scOvf := false, scCnt := 0, pwCnt := 0, pwCmpAct := 0, history := withoutLostTicks s.history }

theorem eraseCounts_emit {e : Event} (he : e ≠ .evTickLost) (s : State) :
    (emit e s).eraseCounts = emit e s.eraseCounts := by
  simp [State.eraseCounts, withoutLostTicks, emit, he]

/-- A count of either counter is erased whole (42_duty_cycle_output.md R148). -/
theorem Performs.eraseCounts_counter {i : Instr} {s t : State} (h : Performs i s t) (hh : i.agent ≠ .h)
    (hts : i.agent ≠ .ts) : t.eraseCounts = s.eraseCounts := by
  cases h with
  | scOverflow =>
    cases hpending : pending s <;> simp [State.eraseCounts, withoutLostTicks, hpending, emitIfTickLost]
  | scCount | pwPeriodEnd | pwCount => rfl
  | start | stop => exact absurd rfl hh
  | _ => exact absurd rfl hts

/-- After its entry no step of the handler reads what a count leaves. -/
theorem Performs.eraseCounts_handler {i : Instr} {s t : State} (h : Performs i s t) (hts : i.agent = .ts)
    (hentry : i ≠ .isrEntry) : Performs i s.eraseCounts t.eraseCounts := by
  cases h with
  | start | stop | scOverflow | scCount | pwPeriodEnd | pwCount => cases hts
  | isrEntry => exact absurd rfl hentry
  | diagToggle hp => exact .diagToggle (s := s.eraseCounts) hp
  | loadSample hp hb hnull hin hrange => exact .loadSample (s := s.eraseCounts) hp hb hnull hin hrange
  | autostop hp hb hnull hpast hpol =>
    rw [eraseCounts_emit (e := .evAutoStop) nofun]
    exact .autostop (s := s.eraseCounts) hp hb hnull hpast hpol
  | overrunRead hp hb hnull hpast hpol =>
    rw [eraseCounts_emit (e := .evOverrunRead _) nofun]
    exact .overrunRead (s := s.eraseCounts) hp hb hnull hpast hpol
  | writeCmp hp hheld =>
    rw [eraseCounts_emit (e := .evCmpWrite _) nofun]
    exact .writeCmp (s := s.eraseCounts) hp hheld
  | incCursor hp => exact .incCursor (s := s.eraseCounts) hp
  | clearOvf hp => exact .clearOvf (s := s.eraseCounts) hp
  | reti hp => exact .reti (s := s.eraseCounts) hp

/-- A trace that ends with no fault recorded began with none. -/
theorem faults_of_execAll {ops : List Instr} {s t : State} (h : execAll ops s = .next t) (ht : t.faults = []) :
    s.faults = [] := by
  cases ops with
  | nil => exact next_eq.mp h ▸ ht
  | cons i rest =>
    obtain ⟨u, hu, -⟩ := execAll_cons_next.mp h
    exact (exec_next.mp hu).1

/-- With what a count leaves erased, a trace without an entry is its steps of the handler alone. -/
theorem execAll_eraseCounts {ops : List Instr} {s t : State} (hhost : ∀ i ∈ ops, i.agent ≠ .h)
    (hentry : .isrEntry ∉ ops) (h : execAll ops s = .next t) (ht : t.faults = []) :
    execAll (sequencerSteps ops) s.eraseCounts = .next t.eraseCounts := by
  induction ops generalizing s with
  | nil => exact congrArg (fun u : State => Host.Outcome.next u.eraseCounts) (next_eq.mp h).symm
  | cons i rest ih =>
    obtain ⟨u, hu, hrest⟩ := execAll_cons_next.mp h
    obtain ⟨hne, hnone⟩ := not_or.mp (mt List.mem_cons.mpr hentry)
    have hperf : Performs i s u := exec_performs hu (faults_of_execAll hrest ht)
    have ih := ih (fun j hj => hhost j (.tail i hj)) hnone hrest
    by_cases hts : i.agent = .ts
    · have hf : s.eraseCounts.faults = [] := (exec_next.mp hu).1
      have hstep := exec_of_performs hf (hperf.eraseCounts_handler hts (Ne.symm hne))
      rw [sequencerSteps_cons_of_ts hts, execAll_cons_of hstep]
      exact ih
    · rw [sequencerSteps_cons_of_ne hts, ← hperf.eraseCounts_counter (hhost i (.head rest)) hts]
      exact ih

/-- The history only grows (10_state.md R52). -/
theorem exec_history_grows {i : Instr} {s t : State} (h : exec i s = .next t) : ∃ es, t.history = s.history ++ es := by
  obtain ⟨-, hperf | ⟨r, -, rfl⟩⟩ := exec_next.mp h
  · cases hperf with
    | start | stop | isrEntry | autostop | overrunRead | writeCmp => exact ⟨_, rfl⟩
    | scOverflow => cases hpending : pending s <;> simp [hpending]
    | _ => exact ⟨[], (List.append_nil _).symm⟩
  · exact ⟨[], (List.append_nil _).symm⟩

theorem execAll_history_grows {ops : List Instr} {s t : State} (h : execAll ops s = .next t) :
    ∃ es, t.history = s.history ++ es := by
  refine execAll_keeps (P := fun u => ∃ es, u.history = s.history ++ es) (fun i _ u v hu hv => ?_)
    ⟨[], (List.append_nil _).symm⟩ h
  obtain ⟨es, hes⟩ := hu
  obtain ⟨more, hmore⟩ := exec_history_grows hv
  exact ⟨es ++ more, by rw [hmore, hes, List.append_assoc]⟩

/-- A CLEAR_OVF with no SC_CLK after it leaves the flag clear. -/
theorem scOvf_after_clearOvf {earlier later : List Instr} {s t : State}
    (h : execAll (earlier ++ .clearOvf :: later) s = .next t) (hlater : .scClk ∉ later) : t.scOvf = false := by
  obtain ⟨u, -, hu⟩ := execAll_append_next.mp h
  obtain ⟨v, hv, hlast⟩ := execAll_cons_next.mp hu
  obtain ⟨-, -, rfl⟩ := execClearOvf_next.mp hv
  refine execAll_keeps (P := fun w => w.scOvf = false) (fun i hi w x hw hx => ?_) rfl hlast
  refine Bool.eq_false_iff.mpr fun hset => hlater ?_
  obtain ⟨rfl, -⟩ := exec_scOvf_set hx hw hset
  exact hi

/-- A trace whose sequencer steps are those of a tick: counts, the entry, and the rest of the tick among counts. -/
theorem tick_split {c : Config} {ops : List Instr} (h : sequencerSteps ops = Pseudo.tick.expand c) :
    ∃ earlier later, ops = earlier ++ .isrEntry :: later ∧ sequencerSteps earlier = [] ∧
      sequencerSteps later = [.diagToggle, .loadSample, .writeCmp, .incCursor, .clearOvf, .reti] := by
  obtain ⟨earlier, later, hops, hnone, -, hlater⟩ := List.filter_eq_cons_iff.mp h
  exact ⟨earlier, later, hops, List.filter_eq_nil_iff.mpr hnone, hlater⟩

/-- What such a trace leaves, the counters' own fields erased: the tick's effect on the state it began in. -/
theorem tick_eraseCounts {s t : State} {ops : List Instr} {b n : Nat} (hs : s.Fits)
    (hb : bufferHeld s = some (b, n)) (hnull : b ≠ s.cfg.nullAddr) (hin : s.cursor < n)
    (hrange : b + s.cursor < s.cfg.memSize) (hops : ∀ i ∈ ops, i.agent ≠ .h)
    (hticks : sequencerSteps ops = Pseudo.tick.expand s.cfg)
    (h : execAll ops s = .next t) (ht : t.faults = []) :
    t.eraseCounts = { s.eraseCounts with
      pwCmp := Memory.read s.mem (b + s.cursor),
      cursor := if s.cfg.overrunPolicy = .wrap ∧ s.cursor + 1 = n then 0 else s.cursor + 1,
      diagLvl := if s.cfg.diagHook = true then !s.diagLvl else s.diagLvl,
      gie := true, sampleTmp := none, phase := .idle,
      history := s.eraseCounts.history ++ [.evTick, .evCmpWrite (Memory.read s.mem (b + s.cursor))] } := by
  obtain ⟨earlier, later, rfl, hearlier, hlater⟩ := tick_split hticks
  obtain ⟨u, hu, hrest⟩ := execAll_append_next.mp h
  obtain ⟨v, hv, hlast⟩ := execAll_cons_next.mp hrest
  have hcounts : u.eraseCounts = s.eraseCounts := by
    have hrun := execAll_eraseCounts (fun i hi => hops i (by simp [hi]))
      (isrEntry_not_mem_of_sequencerSteps (by simp [hearlier])) hu (exec_next.mp hv).1
    rw [hearlier] at hrun
    exact next_eq.mp hrun
  have hv : v.eraseCounts = emit .evTick (enterInterrupt s.eraseCounts) := by
    obtain ⟨-, -, rfl⟩ := execIsrEntry_next.mp hv
    rw [eraseCounts_emit (e := .evTick) nofun, ← hcounts]
    rfl
  have hrun := execAll_eraseCounts (fun i hi => hops i (by simp [hi]))
    (isrEntry_not_mem_of_sequencerSteps (by simp [hlater])) hlast ht
  have hfits : s.eraseCounts.Fits := { hs with cnt := Nat.two_pow_pos _ }
  have hsafe : s.faults = [] := faults_of_execAll h ht
  rw [hlater, hv, execAll_handler hfits hsafe hb hnull hin hrange] at hrun
  exact (next_eq.mp hrun).trans rfl

/-- Settles O33: the tick's effect, read off field by field, and the flag by its only setter. -/
theorem handlerRunPlaysOneSample : Obligations.HandlerRunPlaysOneSample := by
  intro s t ops b n hs hb hnull hin hrange hops hticks h ht
  have herase := tick_eraseCounts hs hb hnull hin hrange hops hticks h ht
  refine ⟨congrArg State.pwCmp herase, congrArg State.cursor herase, congrArg State.diagLvl herase,
    congrArg State.phase herase, congrArg State.gie herase, congrArg State.sampleTmp herase, ?_, ?_⟩
  · obtain ⟨es, hes⟩ := execAll_history_grows h
    refine ⟨es, hes, ?_⟩
    have hhistory : withoutLostTicks t.history = withoutLostTicks s.history ++ _ := congrArg State.history herase
    rw [hes, withoutLostTicks, List.filter_append] at hhistory
    exact List.append_cancel_left hhistory
  · rintro earlier later rfl hlater
    exact scOvf_after_clearOvf h hlater

end Sys2Proof.Machine

/-! PROOFS. Periods of the two counters: an overflow of the Sample Clock, the duty cycle, and the latency of a compare
write (41_sample_clock.md R102, 42_duty_cycle_output.md R143 and R145). -/

namespace Sys2Proof.Machine

/-- One more of the same operation, at the end. -/
theorem execAll_replicate_succ {i : Instr} {k : Nat} {s t u : State} (h : execAll (List.replicate k i) s = .next t)
    (hi : exec i t = .next u) : execAll (List.replicate (k + 1) i) s = .next u := by
  rw [List.replicate_succ']
  exact execAll_append_next.mpr ⟨t, h, execAll_cons_next.mpr ⟨u, hi, rfl⟩⟩

/-! ### The Sample Clock -/

/-- Up to TOP the counter counts and nothing overflows (41_sample_clock.md R102). -/
theorem execAll_scClk {s : State} (hf : s.faults = []) (hon : s.scEn = true) (hmode : s.scMode = .normal)
    (hzero : s.scCnt = 0) (hfits : s.scPer < 2 ^ s.cfg.scW) {k : Nat} (hk : k ≤ s.scPer) :
    execAll (List.replicate k .scClk) s = .next { s with scCnt := k } := by
  induction k with
  | zero => exact congrArg (fun c => Host.Outcome.next { s with scCnt := c }) hzero
  | succ k ih =>
    have hbelow : k ≠ s.scPer := by omega
    have hcount : wrap s.cfg.scW (k + 1) = k + 1 := wrap_of_lt (by omega)
    refine execAll_replicate_succ (ih (by omega)) ?_
    rw [exec_of_performs (s := { s with scCnt := k }) hf (.scCount hon hmode hbelow)]
    simp only [hcount]

/-- Settles O23: the counter reaches TOP, and the next count returns it to 0 and sets the flag. -/
theorem samplePeriodOverflowsOnce : Obligations.SamplePeriodOverflowsOnce := by
  intro s hf hon hmode hzero hovf hfits
  have hcounts : ∀ k, k ≤ s.scPer → execAll (List.replicate k .scClk) s = .next { s with scCnt := k } :=
    fun _ => execAll_scClk hf hon hmode hzero hfits
  have hfree : pending { s with scCnt := s.scPer } = false := pending_eq_false_iff.mpr (.inl hovf)
  exact ⟨hcounts, execAll_replicate_succ (hcounts _ le_rfl) (execScClk_overflow_unpending hf hon hmode rfl hfree)⟩

/-! ### The PWM -/

/-- Inside the period of 256 counts the PWM counts, and the latch stays (42_duty_cycle_output.md R142). -/
theorem execAll_pwmClk {s : State} (hf : s.faults = []) (hon : s.pwEn = true) (hmode : s.pwMode = .pwm8)
    (hper : s.pwPer = 255) {k : Nat} (hk : s.pwCnt.toNat + k < 256) :
    execAll (List.replicate k .pwmClk) s = .next { s with pwCnt := BitVec.ofNat 8 (s.pwCnt.toNat + k) } := by
  induction k with
  | zero => simp [execAll]
  | succ k ih =>
    refine execAll_replicate_succ (ih (by omega)) ?_
    have hbelow : ¬ s.pwPer ≤ BitVec.ofNat 8 (s.pwCnt.toNat + k) := by
      rw [hper, BitVec.le_def, BitVec.toNat_ofNat, show (255 : Byte).toNat = 255 from rfl]
      omega
    rw [exec_of_performs (s := { s with pwCnt := BitVec.ofNat 8 (s.pwCnt.toNat + k) }) hf (.pwCount hon hmode hbelow)]
    simp [BitVec.ofNat_add, add_assoc]

/-- The count that ends the period takes the written compare value into use (42_duty_cycle_output.md R143). -/
theorem execAll_pwmClk_period {s : State} (hf : s.faults = []) (hon : s.pwEn = true) (hmode : s.pwMode = .pwm8)
    (hper : s.pwPer = 255) :
    execAll (List.replicate (256 - s.pwCnt.toNat) .pwmClk) s = .next { s with pwCnt := 0, pwCmpAct := s.pwCmp } := by
  have hlt := s.pwCnt.isLt
  have hlast : s.pwCnt.toNat + (255 - s.pwCnt.toNat) = 255 := by omega
  have hcount : 256 - s.pwCnt.toNat = (255 - s.pwCnt.toNat) + 1 := by omega
  have hrun := execAll_pwmClk hf hon hmode hper (k := 255 - s.pwCnt.toNat) (by omega)
  have htop : s.pwPer ≤ BitVec.ofNat 8 255 := by rw [hper]; decide
  rw [hlast] at hrun
  rw [hcount]
  exact execAll_replicate_succ hrun (exec_of_performs hf (.pwPeriodEnd hon hmode htop))

/-- Of the first `n` numbers `m` are below `m`. -/
theorem countP_range_lt {m n : Nat} (h : m ≤ n) : (List.range n).countP (fun k => decide (k < m)) = m := by
  obtain ⟨d, rfl⟩ := Nat.exists_eq_add_of_le h
  rw [List.range_add, List.countP_append, List.countP_eq_length.mpr (by simp), List.countP_eq_zero.mpr (by simp)]
  simp

/-- Settles O39: from 0 the counter takes each of the 256 values once, and the pin is high below the latch. -/
theorem dutyCycle : Obligations.DutyCycle := by
  intro s hf hon hmode hper hzero hdir houten hroute
  have hcounts : ∀ k, k < 256 → execAll (List.replicate k .pwmClk) s = .next { s with pwCnt := BitVec.ofNat 8 k } := by
    intro k hk
    simpa [hzero] using execAll_pwmClk hf hon hmode hper (k := k) (by simpa [hzero] using hk)
  refine ⟨hcounts, ?_⟩
  rw [← countP_range_lt s.pwCmpAct.isLt.le]
  refine List.countP_congr fun k hk => ?_
  have hk : k < 256 := List.mem_range.mp hk
  have hdrive : pwmDrivesPin { s with pwCnt := BitVec.ofNat 8 k } = true := pwmDrivesPin_iff.mpr ⟨hon, houten, hroute⟩
  have hpin : audioPin { s with pwCnt := BitVec.ofNat 8 k } = .high ↔ k < s.pwCmpAct.toNat := by
    simpa [Nat.mod_eq_of_lt hk] using audioPin_driven (s := { s with pwCnt := BitVec.ofNat 8 k }) hdir hdrive
  simp [hcounts k hk, hpin]

/-- Settles O40: until the period ends the latch stays, and the count that ends it latches the byte. -/
theorem compareWriteLatency : Obligations.CompareWriteLatency := by
  intro s v hf hp hheld hon hmode hper
  obtain ⟨t, ht, hft, hont, hmodet, hpert, hcnt, hact, hcmp⟩ : ∃ t, exec .writeCmp s = .next t ∧ t.faults = [] ∧
      t.pwEn = true ∧ t.pwMode = .pwm8 ∧ t.pwPer = 255 ∧ t.pwCnt = s.pwCnt ∧ t.pwCmpAct = s.pwCmpAct ∧ t.pwCmp = v :=
    ⟨_, exec_of_performs hf (.writeCmp hp hheld), hf, hon, hmode, hper, rfl, rfl, rfl⟩
  rw [← hcnt]
  refine ⟨t, ht, fun k hk => ⟨_, execAll_pwmClk hft hont hmodet hpert (by omega), hact⟩, ?_⟩
  exact ⟨_, execAll_pwmClk_period hft hont hmodet hpert, hcmp, rfl⟩

end Sys2Proof.Machine

/-! PROOFS. No operation reads the dividers, the clock source and frequency, `pw_async`, the diagnostic pin or the
history (10_state.md sections 6 to 10, 70_reset_and_hazards.md R245). -/

namespace Sys2Proof.Machine

/-- Two answers that differ in unread fields only. -/
def SameButUnread (r r' : Result) : Prop := mapNext State.eraseUnread r = mapNext State.eraseUnread r'

theorem sameButUnread_next {s t : State} (h : s.eraseUnread = t.eraseUnread) : SameButUnread (.next s) (.next t) :=
  congrArg Host.Outcome.next h

/-- A guard that reads no unread field makes no difference. -/
theorem guarded_sameButUnread {g : Bool} {r : Refusal} {s : State} {act act' : Result} (h : SameButUnread act act') :
    SameButUnread (guarded g r s act) (guarded g r s.eraseUnread act') := by
  have hfaults : s.eraseUnread.faults = s.faults := rfl
  unfold guarded
  rw [hfaults]
  cases s.faults with
  | nil =>
    cases g with
    | true => exact h
    | false => rfl
  | cons _ _ => rfl

theorem raise_sameButUnread (c : FaultCode) (info : Option Nat) (s : State) :
    SameButUnread (raise c info s) (raise c info s.eraseUnread) :=
  sameButUnread_next rfl

theorem scCount_eraseUnread (s : State) : (scCount s).eraseUnread = (scCount s.eraseUnread).eraseUnread := by
  have htop : scAtTop s.eraseUnread = scAtTop s := rfl
  unfold scCount
  rw [htop]
  split <;> rfl

theorem pwCount_eraseUnread (s : State) : (pwCount s).eraseUnread = (pwCount s.eraseUnread).eraseUnread := by
  by_cases hend : s.pwPer ≤ s.pwCnt
  · rw [pwCount_periodEnd hend, pwCount_periodEnd (s := s.eraseUnread) hend]
    rfl
  · rw [pwCount_inPeriod hend, pwCount_inPeriod (s := s.eraseUnread) hend]
    rfl

theorem loadInBuffer_sameButUnread (b : Nat) (s : State) :
    SameButUnread (loadInBuffer b s) (loadInBuffer b s.eraseUnread) := by
  have hread : memRead s.eraseUnread (effectiveAddress b s.eraseUnread.cursor) =
      memRead s (effectiveAddress b s.cursor) := rfl
  unfold loadInBuffer
  rw [hread]
  cases memRead s (effectiveAddress b s.cursor) with
  | ok v => exact sameButUnread_next rfl
  | error r => exact raise_sameButUnread _ _ s

theorem overrun_sameButUnread (s : State) : SameButUnread (overrun s) (overrun s.eraseUnread) := by
  have hpol : s.eraseUnread.cfg.overrunPolicy = s.cfg.overrunPolicy := rfl
  unfold overrun
  rw [hpol]
  cases s.cfg.overrunPolicy <;> exact sameButUnread_next rfl

theorem loadSample_sameButUnread (s : State) : SameButUnread (loadSample s) (loadSample s.eraseUnread) := by
  have hbuf : bufferHeld s.eraseUnread = bufferHeld s := rfl
  have hnull : s.eraseUnread.cfg.nullAddr = s.cfg.nullAddr := rfl
  have hcursor : s.eraseUnread.cursor = s.cursor := rfl
  unfold loadSample
  rw [hbuf]
  cases bufferHeld s with
  | none => exact raise_sameButUnread _ _ s
  | some p =>
    simp only [hnull, hcursor]
    split_ifs
    · exact raise_sameButUnread _ _ s
    · exact overrun_sameButUnread s
    · exact loadInBuffer_sameButUnread _ s

theorem writeCmp_sameButUnread (s : State) : SameButUnread (writeCmp s) (writeCmp s.eraseUnread) := by
  have hsample : s.eraseUnread.sampleTmp = s.sampleTmp := rfl
  unfold writeCmp
  rw [hsample]
  cases s.sampleTmp with
  | none => exact raise_sameButUnread _ _ s
  | some v => exact sameButUnread_next rfl

theorem execScClk_sameButUnread (s : State) : SameButUnread (execScClk s) (execScClk s.eraseUnread) := by
  refine guarded_sameButUnread ?_
  have hmode : s.eraseUnread.scMode = s.scMode := rfl
  rw [hmode]
  cases s.scMode with
  | normal => exact sameButUnread_next (scCount_eraseUnread s)
  | other => exact raise_sameButUnread _ _ s

theorem execPwmClk_sameButUnread (s : State) : SameButUnread (execPwmClk s) (execPwmClk s.eraseUnread) := by
  refine guarded_sameButUnread ?_
  have hmode : s.eraseUnread.pwMode = s.pwMode := rfl
  rw [hmode]
  cases s.pwMode with
  | pwm8 => exact sameButUnread_next (pwCount_eraseUnread s)
  | other => exact raise_sameButUnread _ _ s

theorem execStart_sameButUnread (base : BitVec 32) (len : BitVec 24) (s : State) :
    SameButUnread (execStart base len s) (execStart base len s.eraseUnread) := by
  have hwf : Instr.wf s.eraseUnread.cfg.addrW s.eraseUnread.cfg.lenW (.start base len) =
      Instr.wf s.cfg.addrW s.cfg.lenW (.start base len) := rfl
  unfold execStart
  rw [hwf]
  split
  · exact guarded_sameButUnread (sameButUnread_next rfl)
  · exact guarded_sameButUnread (raise_sameButUnread _ _ s)

/-- Settles O44: the guard and the write of each operation name no unread field. -/
theorem unreadFields : Obligations.UnreadFields := by
  intro i s
  cases i with
  | start base len => exact execStart_sameButUnread base len s
  | scClk => exact execScClk_sameButUnread s
  | pwmClk => exact execPwmClk_sameButUnread s
  | loadSample => exact guarded_sameButUnread (loadSample_sameButUnread s)
  | writeCmp => exact guarded_sameButUnread (writeCmp_sameButUnread s)
  | stop | isrEntry | diagToggle | incCursor | clearOvf | reti =>
    exact guarded_sameButUnread (sameButUnread_next rfl)

end Sys2Proof.Machine

/-! PROOFS. Liveness: a fair sequencer takes a pending interrupt (70_reset_and_hazards.md R245,
41_sample_clock.md R104). -/

namespace Sys2Proof.Machine

/-- The interrupt can be taken: flag, enable and mask set, and the sequencer idle (41_sample_clock.md R104). -/
def InterruptReady (s : State) : Prop := s.phase = .idle ∧ s.gie = true ∧ s.scOvfie = true ∧ s.scOvf = true

/-- The turn takes the interrupt, or is a STOP of the host. -/
def EndsWait (turn : Turn) (s u : State) : Prop :=
  turn.issuer = .block ∧ decodeHere s turn.word = .ok .isrEntry ∧ u.phase = .a ∨
    turn.issuer = .host ∧ decodeHere s turn.word = .ok .stop

/-- A turn that answers a next state ran an operation of its issuer's, or is the host's illegal word
(30_encoding.md R80, R84). -/
theorem takeTurn_next_issuer {turn : Turn} {s u : State} (h : takeTurn turn s = .next u) :
    (∃ i, decodeHere s turn.word = .ok i ∧ (turn.issuer = .host ↔ i.agent = .h) ∧ exec i s = .next u) ∨
      turn.issuer = .host ∧ execIllegal turn.word s = .next u := by
  by_cases howner : ∃ i, decodeHere s turn.word = .ok i ∧ (turn.issuer = .host ↔ i.agent = .h)
  · obtain ⟨i, hdec, hissuer⟩ := howner
    exact .inl ⟨i, hdec, hissuer, (takeTurn_decoded hdec hissuer).symm.trans h⟩
  · obtain ⟨issuer, w⟩ := turn
    cases issuer with
    | host =>
      have hillegal : ∀ i, decodeHere s w = .ok i → i.isHostCommand = false := fun i hdec =>
        Bool.eq_false_iff.mpr fun hcmd => howner ⟨i, hdec, fun _ => isHostCommand_iff.mp hcmd, fun _ => rfl⟩
      exact .inr ⟨rfl, (hostTurn_illegal hillegal).symm.trans h⟩
    | block =>
      obtain ⟨i, hdec, -⟩ | ⟨hhost, -⟩ := takeTurn_next h
      · have hcmd : i.isHostCommand = true := isHostCommand_iff.mpr <| by
          by_contra hother
          exact howner ⟨i, hdec, nofun, fun hagent => absurd hagent hother⟩
        simp [takeTurn, blockTurn, hdec, hcmd] at h
      · cases hhost

/-- The agent of such an operation is the agent whose turn it was. -/
theorem turnAgent_decoded {turn : Turn} {s : State} {i : Instr} (hdec : decodeHere s turn.word = .ok i)
    (hissuer : turn.issuer = .host ↔ i.agent = .h) : turnAgent s turn = some i.agent := by
  cases h : turn.issuer with
  | host => rw [turnAgent, h, hissuer.mp h]
  | block => simp only [turnAgent, h, hdec]

/-- While the interrupt can be taken the sequencer's operation is its entry, and no other but STOP ends the wait. -/
theorem InterruptReady.performs {s u : State} {i : Instr} (hs : InterruptReady s) (h : Does i s u) :
    InterruptReady u ∧ i.agent ≠ .ts ∨ i = .isrEntry ∧ u.phase = .a ∨ i = .stop := by
  obtain ⟨hidle, hgie, hie, hovf⟩ := hs
  obtain hperf | ⟨r, hraise, rfl⟩ := h
  · cases hperf with
    | start => exact .inl ⟨⟨hidle, rfl, rfl, hovf⟩, nofun⟩
    | stop => exact .inr (.inr rfl)
    | scOverflow => exact .inl ⟨⟨hidle, hgie, hie, rfl⟩, nofun⟩
    | scCount | pwPeriodEnd | pwCount => exact .inl ⟨⟨hidle, hgie, hie, hovf⟩, nofun⟩
    | isrEntry => exact .inr (.inl ⟨rfl, rfl⟩)
    | diagToggle hp | loadSample hp | autostop hp | overrunRead hp | writeCmp hp | incCursor hp | clearOvf hp
    | reti hp => cases hidle.symm.trans hp
  · cases hraise with
    | illegalStart | scMode | pwMode => exact .inl ⟨⟨hidle, hgie, hie, hovf⟩, nofun⟩
    | noBuffer hp | nullBuffer hp | overrun hp | memRange hp | unwritten hp => cases hidle.symm.trans hp

/-- A turn either leaves the interrupt ready, and is no turn of the sequencer, or ends the wait. -/
theorem InterruptReady.turn {turn : Turn} {s u : State} (hs : InterruptReady s) (h : takeTurn turn s = .next u) :
    InterruptReady u ∧ turnAgent s turn ≠ some .ts ∨ EndsWait turn s u := by
  obtain ⟨i, hdec, hissuer, hexec⟩ | ⟨hhost, hillegal⟩ := takeTurn_next_issuer h
  · rw [turnAgent_decoded hdec hissuer]
    obtain ⟨hready, hts⟩ | ⟨rfl, hp⟩ | rfl := hs.performs (exec_next.mp hexec).2
    · exact .inl ⟨hready, fun hag => hts (Option.some.inj hag)⟩
    · have hblock : turn.issuer = .block := by
        cases hturn : turn.issuer with
        | host => cases hissuer.mp hturn
        | block => rfl
      exact .inr (.inl ⟨hblock, hdec, hp⟩)
    · exact .inr (.inr ⟨hissuer.mpr rfl, hdec⟩)
  · obtain ⟨-, -, rfl⟩ := execIllegal_next.mp hillegal
    exact .inl ⟨hs, by simp [turnAgent, hhost]⟩

/-- Where the interrupt can be taken the sequencer has an enabled step, its entry. -/
theorem InterruptReady.enabled {s : State} (hs : InterruptReady s) (hf : s.faults = []) : Enabled .ts s := by
  obtain ⟨hp, hgie, hie, hovf⟩ := hs
  have hdec : decodeHere s (Turn.ofInstr .isrEntry).word = .ok .isrEntry := decodeOfEncode _ _ .isrEntry rfl
  have hissuer := ofInstr_issuer .isrEntry
  exact ⟨Turn.ofInstr .isrEntry, _, turnAgent_decoded hdec hissuer,
    (takeTurn_decoded hdec hissuer).trans (exec_of_performs hf (.isrEntry hp hgie hie hovf))⟩

/-- In an infinite run no fault is ever recorded, because a turn is taken at every instant (60_exceptions.md R202). -/
theorem Run.faults (r : Run) (m : Nat) : (r.state m).faults = [] := by
  by_contra hf
  exact takeTurn_ne_next_of_faults hf _ _ (r.taken m)

/-- Up to the first turn that ends the wait the interrupt stays ready. -/
theorem Run.ready_until {r : Run} {n : Nat} (hn : InterruptReady (r.state n)) {m : Nat} (hm : n ≤ m)
    (hwait : ∀ k, n ≤ k → k < m → ¬ EndsWait (r.move k) (r.state k) (r.state (k + 1))) :
    InterruptReady (r.state m) := by
  induction m, hm using Nat.le_induction with
  | base => exact hn
  | succ m hm ih =>
    have hready := ih fun k hk hlt => hwait k hk (by omega)
    obtain ⟨hnext, -⟩ | hends := hready.turn (r.taken m)
    · exact hnext
    · exact absurd hends (hwait m hm (by omega))

/-- Under fairness to the sequencer the wait ends: else its step would stay enabled and never be scheduled. -/
theorem Run.wait_ends {r : Run} {n : Nat} (hfair : r.FairTo .ts) (hn : InterruptReady (r.state n)) :
    ∃ m, n ≤ m ∧ EndsWait (r.move m) (r.state m) (r.state (m + 1)) := by
  by_contra hnever
  have hready : ∀ m, n ≤ m → InterruptReady (r.state m) := fun m hm =>
    Run.ready_until hn hm fun k hk _ hends => hnever ⟨k, hk, hends⟩
  obtain ⟨m, hm, hag⟩ := hfair n fun m hm => (hready m hm).enabled (r.faults m)
  obtain ⟨-, hother⟩ | hends := (hready m hm).turn (r.taken m)
  · exact hother hag
  · exact hnever ⟨m, hm, hends⟩

/-- Settles O56: the wait ends by fairness, and up to its first end the interrupt stays ready. -/
theorem fairRunsTakeInterrupt : Obligations.FairRunsTakeInterrupt := by
  classical
  intro r n hfair hp hgie hie hovf
  have hn : InterruptReady (r.state n) := ⟨hp, hgie, hie, hovf⟩
  have hends := Run.wait_ends hfair hn
  obtain ⟨hm, hlast⟩ := Nat.find_spec hends
  refine ⟨Nat.find hends, hm, fun k hk hkm => Run.ready_until hn hk fun j hj hjk hj' => ?_, hlast⟩
  exact Nat.find_min hends (by omega) ⟨hj, hj'⟩

end Sys2Proof.Machine
